-- ==== Sys2Proof/Word.lean ====
section
/-! DEFINITION. The unit of memory of the ZT740 and its 32-bit word (chapter 0, Conventions). -/

namespace Sys2Proof

/-- One byte of buffer DRAM, of a stripe or of the cartridge memory. -/
abbrev Byte := BitVec 8

/-- A 32-bit register, such as the CRC accumulator of R15. -/
abbrev Word32 := BitVec 32

end Sys2Proof
end

