-- ==== Sys2Proof/Syntax.lean ====
section
/-! DEFINITION. The commands of the block: one constructor of `Instr` for each row of spec/opcode_table.json, and the types of their operands. -/

namespace Sys2Proof

/-- The two masters of the upstream port (R171). -/
inductive Initiator where
  | drive
  | link
  deriving DecidableEq, Repr

/-- The width of an upstream access (R171). -/
inductive Width where
  | w1
  | w2
  | w4
  | w8
  deriving DecidableEq, Repr

/-- How a transaction on the cartridge link ends (R135): acknowledged; a no-acknowledge before the stop condition; or,
of a page write, no acknowledge of a poll within 10 ms of the stop condition. -/
inductive LinkOutcome where
  | ack
  | noAck
  | noAckAfterStop
  deriving DecidableEq, Repr

/-- What the channel did with its FIFO since the last grant (R67, R86): nothing; the write channel took `n` bytes; or the
read channel delivered bytes. Log entry 9. -/
inductive ChannelFlow where
  | quiet
  | taken (n : Nat)
  | delivered (bytes : List Byte)
  deriving DecidableEq, Repr

/-- The 64 header bytes as the read channel delivered them, with its own validity flag (R8). -/
structure HeaderRead where
  valid : Bool
  bytes : List Byte
  deriving DecidableEq, Repr

/-- The read channel's counts for a position (R70, R87): uncorrectable rows out of 256 and the maximum corrected
symbols of any row, 0 to 16. -/
structure Counts where
  rows : Nat
  maxCorrected : Nat
  deriving DecidableEq, Repr

/-- The arguments of SENSOR_PLAN as they lie in the slot (chapter 9, Formats). -/
structure PlanArgs where
  lengthA : BitVec 8
  lengthB : BitVec 8
  listA : List Byte
  listB : List Byte
  scanMask : BitVec 16
  flags : BitVec 8
  period : BitVec 8
  batch : BitVec 8
  formatMask : BitVec 16
  deriving DecidableEq, Repr

/-- The commands, in the order of spec/opcode_table.json. A command the drive processor posts carries the tag and the
flags byte of its post word (R182) and its arguments. -/
inductive Instr where
  /-- Power-up with the inputs as given and, if one is in the drive, a cartridge whose memory holds `mem` (R116, R180). -/
  | powerOnReset (present tapeInPath protected_ : Bool) (mem : List Host.Cell)
  /-- A write to map-page offset 268 + `lane` (R172). -/
  | resetWordWrite (who : Initiator) (lane : BitVec 2) (w : Width) (value : BitVec 64)
  /-- A write to byte `lane` of bytes 0-7 of descriptor `index` (R173). -/
  | descriptorWrite (who : Initiator) (index : BitVec 4) (lane : BitVec 3) (w : Width) (value : BitVec 64)
  /-- A write to byte `lane` of the commit word of descriptor `index` (R173, R174). -/
  | descriptorCommit (who : Initiator) (index : BitVec 4) (lane : BitVec 3) (w : Width) (value : BitVec 64)
  /-- A write to map-page offset 256 + `lane` (R172, R187). -/
  | completionHeadWrite (who : Initiator) (lane : BitVec 2) (w : Width) (value : BitVec 64)
  /-- A write to map-page offset 260 + `lane` (R154, R172). -/
  | sensorHeadWrite (who : Initiator) (lane : BitVec 2) (w : Width) (value : BitVec 64)
  /-- A write to map-page offset 264 + `lane` (R172, R188). -/
  | attentionMaskWrite (who : Initiator) (lane : BitVec 2) (w : Width) (value : BitVec 64)
  /-- An upstream write (R176). -/
  | upstreamWrite (who : Initiator) (addr : Nat) (w : Width) (value : BitVec 64)
  /-- An upstream write meant for the COMMAND ring (R183). -/
  | commandPost (who : Initiator) (addr : Nat) (w : Width) (value : BitVec 64)
  /-- An upstream write meant for the POOL region (R34). -/
  | poolWrite (who : Initiator) (addr : Nat) (w : Width) (value : BitVec 64)
  /-- An upstream write meant for the PACK aperture (R41). -/
  | packWrite (who : Initiator) (addr : Nat) (w : Width) (value : BitVec 64)
  /-- An upstream read, of the UNPACK aperture or of any other address (R96, R176). -/
  | unpackRead (who : Initiator) (addr : Nat) (w : Width)
  /-- The hold limit of the initiator's held access runs out (R178). -/
  | holdLimitExpiry (who : Initiator)
  /-- The arbiter grants the DRAM port once (R179). -/
  | dramPortGrant (flow : ChannelFlow)
  | setPool (tag : BitVec 16) (flags : BitVec 8) (n : BitVec 16)
  | setCompression (tag : BitVec 16) (flags : BitVec 8) (setting : BitVec 8)
  | setSealInterval (tag : BitVec 16) (flags : BitVec 8) (seconds : BitVec 16)
  | sensorPlan (tag : BitVec 16) (flags : BitVec 8) (plan : PlanArgs)
  | setHealth (tag : BitVec 16) (flags : BitVec 8) (ci : BitVec 16)
  | queryHealth (tag : BitVec 16) (flags : BitVec 8)
  | loopback (tag : BitVec 16) (flags : BitVec 8) (slot : BitVec 16)
  /-- The read channel's report of the looped image (R170). -/
  | loopbackReport (header : HeaderRead) (counts : Counts)
  | load (tag : BitVec 16) (flags : BitVec 8)
  | unload (tag : BitVec 16) (flags : BitVec 8)
  | rewind (tag : BitVec 16) (flags : BitVec 8)
  | locate (tag : BitVec 16) (flags : BitVec 8) (kind : BitVec 8) (target : BitVec 32)
  | locateEod (tag : BitVec 16) (flags : BitVec 8)
  | space (tag : BitVec 16) (flags : BitVec 8) (kind : BitVec 8) (count : BitVec 32)
  | openWrite (tag : BitVec 16) (flags : BitVec 8)
  | streamRecord (tag : BitVec 16) (flags : BitVec 8) (count : BitVec 8) (lengths : List (BitVec 32))
  | writeMark (tag : BitVec 16) (flags : BitVec 8) (count : BitVec 8) (sync : BitVec 8)
  | flush (tag : BitVec 16) (flags : BitVec 8)
  | openRead (tag : BitVec 16) (flags : BitVec 8)
  | deliverRecord (tag : BitVec 16) (flags : BitVec 8) (length : BitVec 32)
  | close (tag : BitVec 16) (flags : BitVec 8)
  | abort (tag : BitVec 16) (flags : BitVec 8)
  /-- A cartridge is put in: its write-protect switch and its memory (R116). -/
  | cartridgeInserted (protected_ : Bool) (mem : List Host.Cell)
  | cartridgeRemoval
  | i2cTransactionDone (outcome : LinkOutcome)
  | i2cRetryWaitExpiry
  | servoLock
  /-- The leader is not captured; the thread sensor's reading once the leader has been returned (R117). -/
  | leaderNotCaptured (tapeInPath : Bool)
  /-- 8 s pass without servo lock; the thread sensor's reading once the leader has been returned (R117). -/
  | threadTimeout (tapeInPath : Bool)
  | tensionUp
  | tensionFault
  | speedFault
  /-- A servo mark passes the head, `wait` ticks of the model's clock after the step before (R121; log entry 1). -/
  | markEvent (wait : Nat)
  | runOnEnd
  | wearStep
  | turnaroundDone
  | repositionReady
  | governorStart
  | readAheadResume
  | unthreadDone
  | leaderHome
  | recoveryTensionTimeout
  | sequenceStart
  /-- A conversion ends with this raw value (R149, R151). -/
  | conversionDone (raw : BitVec 12)
  /-- The coder takes up to `n` bytes from the intake FIFO (R55). -/
  | coderTakeBytes (n : Nat)
  | fillingSlotTaken
  | sealTimerExpiry
  | armStripe
  | transferCountTermination
  | channelStarvation
  /-- A read-after-write report for the position at `mark` (R70). -/
  | verifyReport (mark : Nat) (header : HeaderRead) (counts : Counts)
  | readPositionStart
  | receptionOverrun
  /-- A reception report (R87); the header bytes lie in the slot, `headerValid` is the channel's own flag (R8). -/
  | receptionReport (pass mark : Nat) (blank headerValid : Bool) (counts : Counts)
  | retryStart
  | deliverySlotTaken
  | decodeStep
  | handover
  /-- A header report of a header search (R125): position, blank flag, header, and the flags byte of each entry. -/
  | headerReport (pass mark : Nat) (blank : Bool) (header : HeaderRead) (entryFlags : List Byte)
  | tapeStopped
  deriving DecidableEq, Repr

end Sys2Proof
end

