-- ==== Sys2Proof/Config.lean ====
section
/-! DEFINITION. What the manual fixes once (sizes, thresholds, speeds), the tick of the model's clock, and the free values. -/

namespace Sys2Proof.Config

/-- FREE VALUE, DESIGN CHOICE (log entry 5): the n-th byte the manual leaves open. Nothing constrains it. -/
opaque freeByte : Nat → Byte

/-- Bytes of buffer DRAM, 512 MiB (R171). -/
def dramSize : Nat := 536870912
/-- First byte of the map page (R171, R172). -/
def mapPage : Nat := 536866816
/-- Bytes of a page of DRAM (chapter 0, Conventions). -/
def pageSize : Nat := 4096
/-- Bytes of a stripe, and of a slot of the pool (R6, R16). -/
def stripeSize : Nat := 1048576
/-- Entries a stripe can hold (R6). -/
def maxEntries : Nat := 4096
/-- Bytes of a stripe header (R6). -/
def headerSize : Nat := 64
/-- Last mark of the usable tape (R1). -/
def lastMark : Nat := 60000
/-- Marks of one stripe position (R3). -/
def positionMarks : Nat := 6
/-- Highest pass number (R2). -/
def lastPass : Nat := 63
/-- Highest stripe number in use (R7). -/
def lastStripe : Nat := 639999
/-- Longest record, in raw bytes (R38). -/
def maxRecord : Nat := 16777215
/-- Most commands outstanding (R183). -/
def maxOutstanding : Nat := 16
/-- Bytes of the channel FIFO, and its urgency mark (R61, R83). -/
def channelFifo : Nat := 16384
/-- Urgency mark of the channel FIFO, one quarter of its size (R61, R83). -/
def urgentMark : Nat := 4096
/-- Bytes of the intake FIFO and of the output buffer (R37, R93). -/
def smallFifo : Nat := 256
/-- Raw bytes of a whole chunk (R45). -/
def chunkSize : Nat := 2048
/-- Bytes a copy may reach back (R46, R47). -/
def windowSize : Nat := 4096
/-- Bytes of the cartridge memory, and of one of its pages (R135, R137). -/
def cartridgeSize : Nat := 32768
/-- Bytes of a page of the cartridge memory (R135). -/
def linkPage : Nat := 64
/-- Pairs the filemark index can hold (R137). -/
def maxFilemarks : Nat := 512
/-- The value of a 32-bit field that reports something absent (R187, R84, R164). -/
def absent32 : Nat := 4294967295

/-- DESIGN CHOICE (log entry 1): one tick of the model's clock is 2.5 µs; this many make 1 ms. -/
def ticksPerMs : Nat := 400
/-- Ticks of one unit of a hold limit, 10 µs (R173). -/
def ticksPerHoldUnit : Nat := 4
/-- Ticks of the link's wait after a no-acknowledge, 5 ms (R135). -/
def retryWaitTicks : Nat := 2000
/-- Ticks of a threading attempt and of a recovery's tension, 8 s (R117, R119). -/
def threadTicks : Nat := 3200000
/-- Ticks in one second, the unit of the seal interval (R24). -/
def ticksPerSecond : Nat := 400000

/-- FREE VALUE (log entry 27): how many marks the deceleration of a reposition passes, by the number of free values used
before it. The spec does not state it (R110). -/
opaque stopMarks : Nat → Nat

/-- The drain rate D of a level, in sixteenths of a stripe per second (R103). -/
def drainRate : Nat → Nat
  | 0 => 355
  | 1 => 462
  | 2 => 568
  | 3 => 675
  | 4 => 782
  | _ => 888

/-- The speed of a level in tenths of m/s (R103). -/
def levelSpeed : Nat → Nat
  | 0 => 20
  | 1 => 26
  | 2 => 32
  | 3 => 38
  | 4 => 44
  | _ => 50

/-- The shuttle speed in tenths of m/s (R103). -/
def shuttleSpeed : Nat := 80

end Sys2Proof.Config
end

