-- ==== Sys2Proof/Machine/Memory.lean ====
section
/-! DEFINITION. Sparse byte memory in one canonical form, and little-endian fields: the buffer DRAM and the cartridge
memory are both lists of cells (log entry 4: an unlisted byte reads 0). -/

namespace Sys2Proof.Machine

/-- What an unlisted byte reads as. DESIGN CHOICE, unsafe (log entry 4). -/
def Memory.blank : Byte := 0

/-- The byte at an address. -/
def Memory.read : List Host.Cell → Nat → Byte
  | [], _ => Memory.blank
  | (k, v) :: rest, a => if k = a then v else Memory.read rest a

/-- Writes one byte, keeping addresses strictly rising and listing no blank byte. -/
def Memory.write : List Host.Cell → Nat → Byte → List Host.Cell
  | [], a, b => if b = Memory.blank then [] else [(a, b)]
  | (k, v) :: rest, a, b =>
    if a < k then (if b = Memory.blank then (k, v) :: rest else (a, b) :: (k, v) :: rest)
    else if a = k then (if b = Memory.blank then rest else (a, b) :: rest)
    else (k, v) :: Memory.write rest a b

/-- Writes bytes at ascending addresses. -/
def Memory.writeBytes : List Host.Cell → Nat → List Byte → List Host.Cell
  | m, _, [] => m
  | m, a, b :: bs => Memory.writeBytes (Memory.write m a b) (a + 1) bs

/-- Writes the marked bytes of a posting line (R177). -/
def Memory.writeMarked : List Host.Cell → Nat → List (Option Byte) → List Host.Cell
  | m, _, [] => m
  | m, a, some b :: bs => Memory.writeMarked (Memory.write m a b) (a + 1) bs
  | m, a, none :: bs => Memory.writeMarked m (a + 1) bs

/-- A memory of `size` bytes from a list of cells, in the canonical form. -/
def Memory.ofCells (size : Nat) (cells : List Host.Cell) : List Host.Cell :=
  cells.foldl (fun m c => if c.1 < size then Memory.write m c.1 c.2 else m) []

/-- `n` bytes at ascending addresses. -/
def Memory.readBytes (m : List Host.Cell) : Nat → Nat → List Byte
  | _, 0 => []
  | a, n + 1 => Memory.read m a :: Memory.readBytes m (a + 1) n

/-- The canonical form: every cell lies above `low`, addresses rise strictly, no byte is blank. -/
def Memory.wfFrom : Nat → List Host.Cell → Bool
  | _, [] => true
  | low, (k, v) :: rest => decide (low ≤ k) && decide (v ≠ Memory.blank) && Memory.wfFrom (k + 1) rest

/-- The canonical form of a memory. -/
def Memory.wf (m : List Host.Cell) : Bool := Memory.wfFrom 0 m

/-- The `n` low bytes of a number, least significant first (chapter 0, Memory formats). -/
def toLe : Nat → Nat → List Byte
  | 0, _ => []
  | n + 1, x => BitVec.ofNat 8 (x % 256) :: toLe n (x / 256)

/-- The number little-endian bytes stand for. -/
def ofLe : List Byte → Nat
  | [] => 0
  | b :: bs => b.toNat + 256 * ofLe bs

/-- The little-endian field of `n` bytes at offset `a` of a byte list. -/
def fieldAt (bs : List Byte) (a n : Nat) : Nat := ofLe ((bs.drop a).take n)

/-- `n` zero bytes. -/
def zeros (n : Nat) : List Byte := List.replicate n 0

/-- One bit of a byte. -/
def bitOf (b : Byte) (i : Nat) : Bool := b.getLsbD i

/-- A byte from its low bits, bit 0 first. -/
def byteOfBits : List Bool → Nat
  | [] => 0
  | b :: bs => (if b then 1 else 0) + 2 * byteOfBits bs

end Sys2Proof.Machine
end

