-- ==== Sys2Proof/Machine/State.lean ====
section
/-! DEFINITION. The state of the block as plain data: one structure for each of the twelve blocks of chapter 0, the
buffer DRAM, the cartridge memory, the pins, the queue of commands, and the state after power-on reset. -/

namespace Sys2Proof.Machine

/-- Why a step can stop. -/
inductive Fault where
  /-- DRAM_PORT_GRANT raises it for a transfer outside the 512 MiB that R171 says exist. No region in effect can give one
  (R174), so no run from reset meets it. Safe: the machine stops where the part could not be. -/
  | dramOutOfRange
  deriving DecidableEq, Repr

/-- Why a command has no meaning. -/
inductive Refusal where
  /-- Raised by `exec` for a command without a meaning; no arm raises it. Safe. -/
  | notModelled (mnemonic : String)
  deriving DecidableEq, Repr

/-! ### Names of states, results and kinds -/

/-- The twelve motion states, in the order of R115's table. -/
inductive MotionState where
  | empty | present | threading | ready | moving | streaming | repositioning | turnaround | unthreading | cleaning
  | fault | stranded
  deriving DecidableEq, Repr

/-- The travel direction (R115). -/
inductive Travel where
  | stopped | forward | reverse
  deriving DecidableEq, Repr

/-- The pool direction (R19). -/
inductive Direction where
  | none | writeOpen | writeFailed | readOpen
  deriving DecidableEq, Repr

/-- The health state (R159). -/
inductive Health where
  | good | cleanAdvised | cleanRequired
  deriving DecidableEq, Repr

/-- The results of a completion record (chapter 12, Formats). -/
inductive Result where
  | ok | okEarlyWarning | refusedState | refusedArgument | pendingWrite | notAtBoundary | writeProtected | directoryStale
  | aborted | writeFailed | endOfMedia | mediaError | integrityError | codingError | filemark | endOfData | shortRecord
  | longRecord | locateFailed | cartridgeMemoryError | threadFailed | motionFault | cleaningExpired | cleaned
  deriving DecidableEq, Repr

/-- The nine kinds of event note (R187). -/
inductive NoteKind where
  | cartridgePresent | cartridgeRemoved | cleaningRequest | thermalPause | thermalResume | motionFault | writeFailed
  | mapRefused | directoryNotSaved
  deriving DecidableEq, Repr

/-- The kinds of region (R173). -/
inductive RegionKind where
  | none | plain | command | completion | sensor | pool | pack | unpack
  deriving DecidableEq, Repr

/-- The hold modes (R173, R178). -/
inductive HoldMode where
  | wait | limit | refuse
  deriving DecidableEq, Repr

/-- The ten slot states (R17). -/
inductive SlotState where
  | free | filling | sealed | writing | awaitVerify | verified | reading | readDone | readFailed | delivering
  deriving DecidableEq, Repr

/-- The detail bytes of a completion or note: `none` is a byte the spec does not state (log entry 5). -/
abbrev Detail := List (Option Byte)

/-- A place on tape: pass and mark (R1, R2). -/
structure TapePos where
  pass : Nat
  mark : Nat
  deriving DecidableEq, Repr

/-- The data-set position (R115): stripe, record, whether it is a boundary (R12), the tape position it carries, and
whether that is the stripe below's (R85). -/
structure DsPos where
  stripe : Nat
  record : Nat
  boundary : Bool
  carried : TapePos
  below : Bool
  deriving DecidableEq, Repr

/-! ### Buffer Path Unit -/

/-- A descriptor of the effective table (R173). -/
structure Descriptor where
  base : Nat
  pages : Nat
  kind : RegionKind
  mode : HoldMode
  limit : Nat
  allowDrive : Bool
  allowLink : Bool
  enable : Bool
  deriving DecidableEq, Repr

/-- An upstream access (R171). `pool` marks a write that its arrival classified as a POOL write: it is checked against the slot
table at its grant (R34, R176; log entry 17). -/
structure Access where
  who : Initiator
  addr : Nat
  width : Width
  write : Bool
  value : BitVec 64
  pool : Bool := false
  deriving DecidableEq, Repr

/-- The answer to an upstream access (R171): OKAY or ERROR, with the bytes of a read. -/
structure Answer where
  okay : Bool
  bytes : List Byte
  deriving DecidableEq, Repr

/-- What waits at place 2 of the arbiter (R179): a posted line with its marked bytes, or an access that is not posted. -/
inductive UpReq where
  | line (block : Nat) (bytes : List (Option Byte))
  | access (a : Access)
  deriving DecidableEq, Repr

/-- Why an access is stretched before it reaches the port (R177, R178, R181). -/
inductive HoldWhy where
  | line | pack | unpack | reset
  deriving DecidableEq, Repr

/-- A held access: the descriptor it was classified by and the ticks its hold limit still has (R175, R178). -/
structure Held where
  access : Access
  why : HoldWhy
  descriptor : Option Nat
  timer : Option Nat
  deriving DecidableEq, Repr

/-- What waits at place 6 of the arbiter, oldest first (R179). -/
inductive RingReq where
  /-- Zeros into descriptor `i`, captured as performed (R180, R181). -/
  | zeroDescriptor (i : Nat)
  /-- Zero into the word of the map page at this offset (R158, R180, R190). -/
  | zeroWord (offset : Nat)
  /-- The record of the oldest pending item (R187). -/
  | completion
  /-- The part status block (R189). -/
  | status
  /-- A formed sensor record of half `half` (R153, R154). -/
  | sensor (half : Nat) (bytes : List Byte)
  /-- A taken slot's post word with valid clear (R183). -/
  | clearPost (addr : Nat) (bytes : List Byte)
  /-- The CI-unit's read of the post word at the intake index (R183). -/
  | readPost
  /-- The CI-unit's read of the slot at the intake index (R183). -/
  | readSlot
  deriving DecidableEq, Repr

/-- The five requesters of the port (R179); the Tape Transfer Engine stands at place 1 or 3. Log entry 10. -/
inductive Requester where
  | tte | upstream | pack | unpack | ring
  deriving DecidableEq, Repr

/-- The arbiter's starvation counts (R179). -/
structure Starve where
  tte : Nat
  upstream : Nat
  pack : Nat
  unpack : Nat
  ring : Nat
  deriving DecidableEq, Repr

/-- The Buffer Path Unit. -/
structure Bpu where
  captured : List Byte
  effective : List Descriptor
  upstream : List UpReq
  held : List Held
  driveAnswer : Option Answer
  linkAnswer : Option Answer
  starve : Starve
  rewrites : Nat
  ring : List RingReq
  deriving DecidableEq, Repr

/-! ### Command Intake and Completion Writer -/

/-- A command as its slot spells it: the code and the arguments (R182). -/
inductive HostCmd where
  | setPool (n : Nat)
  | setCompression (setting : Nat)
  | setSealInterval (seconds : Nat)
  | sensorPlan (plan : PlanArgs)
  | setHealth (ci : Nat)
  | queryHealth
  | loopback (slot : Nat)
  | load
  | unload
  | rewind
  | locate (kind target : Nat)
  | locateEod
  | space (kind : Nat) (count : Int)
  | openWrite
  | streamRecord (count : Nat) (lengths : List Nat)
  | writeMark (count sync : Nat)
  | flush
  | openRead
  | deliverRecord (length : Nat)
  | close
  | abort
  | unknown (code : Nat)
  deriving DecidableEq, Repr

/-- How far an outstanding command has come: not dispatched, dispatched, aborted while its owner has still to end it (R78,
R186), or its completion handed over (R183, R184). -/
inductive Stage where
  | waiting | running | aborted | handed
  deriving DecidableEq, Repr

/-- The places a command taken is sent to (R184). -/
inductive Queue where
  | configuration | motion | data
  deriving DecidableEq, Repr

/-- An outstanding command (R183); `malformed` when its post word sets a bit the layout gives as zero (R182). -/
structure Taken where
  id : Nat
  tag : BitVec 16
  flags : BitVec 8
  malformed : Bool
  cmd : HostCmd
  queue : Queue
  stage : Stage
  deriving DecidableEq, Repr

/-- The Command Intake. -/
structure Ci where
  intake : Nat
  outstanding : List Taken
  motionQueue : List Nat
  dataQueue : List Nat
  configWait : List Nat
  aborts : List Nat
  nextId : Nat
  deriving DecidableEq, Repr

/-- An item of the pending list: a completion (`cmd` its command) or a note, with its stamps (R187). -/
structure Item where
  cmd : Option Nat
  tag : BitVec 16
  code : Nat
  value : Nat
  health : Health
  motion : MotionState
  direction : Direction
  travel : Travel
  stripe : Nat
  record : Nat
  detailA : Detail
  detailB : Detail
  deriving DecidableEq, Repr

/-- The Completion Writer. -/
structure Cw where
  pending : List Item
  tail : Nat
  head : Nat
  mask : Nat
  attn : Bool
  slotKinds : List (Nat × Bool)
  recordAsked : Bool
  tailDue : Option Item
  statusAsked : Bool
  shown : List Byte
  deriving DecidableEq, Repr

/-! ### Pack Engine -/

/-- A record of an open-record list (R37). -/
structure OpenRecord where
  number : Nat
  raw : Nat
  got : Nat
  deriving DecidableEq, Repr

/-- An open-record list and its STREAM_RECORD (R37). -/
structure OpenList where
  cmd : Nat
  records : List OpenRecord
  deriving DecidableEq, Repr

/-- A command of the intake order (R37): the raw lengths of its records (zeros for filemarks), how many are placed, and
what its completion needs (R40). -/
structure IntakeCmd where
  id : Nat
  mark : Bool
  sync : Bool
  first : Nat
  lengths : List Nat
  placed : Nat
  early : Bool
  refusals : Nat
  coded : Nat
  synced : Bool
  deriving DecidableEq, Repr

/-- The coder's states (R55). -/
inductive CoderState where
  | idle | collecting | emitting | awaitSlot
  deriving DecidableEq, Repr

/-- What EMITTING does next (R52, R53): begin the item's entry, place coded bytes, or write the closed piece's entry. -/
inductive Emit where
  | begin_ | place | entry
  deriving DecidableEq, Repr

/-- The Pack Engine. -/
structure Pe where
  intake : List IntakeCmd
  current : Option OpenList
  next : Option OpenList
  nextRecord : Nat
  cursor : Nat
  fifo : List Byte
  coder : CoderState
  emit : Emit
  chunk : List Byte
  history : List Byte
  table : List (Nat × Nat)
  literals : List Byte
  output : List Byte
  crc : Word32
  taken : Nat
  compressed : Bool
  entryOpen : Bool
  pieceFirst : Bool
  anyPlaced : Bool
  pieceCoded : Nat
  compression : Bool
  deriving DecidableEq, Repr

/-! ### Stripe Pool Manager -/

/-- A slot record (R16); its index is its place in the table. -/
structure Slot where
  state : SlotState
  stripe : Option Nat
  dataBytes : Nat
  entries : Nat
  firstRecord : Option Nat
  copy : Option Nat
  pos : Option TapePos
  deriving DecidableEq, Repr

/-- The sealing writes still to be made (R22). -/
structure SealJob where
  slot : Nat
  writes : List (Nat × List Byte)
  deriving DecidableEq, Repr

/-- The Stripe Pool Manager; the read-ahead order and the write queue are read off the slot table (R25, R30). -/
structure Spm where
  slots : List Slot
  direction : Direction
  sealInterval : Nat
  sealTimer : Option Nat
  sealing : Option SealJob
  clearing : Bool
  dropFrom : Option Nat
  deriving DecidableEq, Repr

/-! ### Tape Transfer Engine -/

/-- The stripe being written (R61): `transfer` false is phase ARMED. -/
structure InFlight where
  slot : Nat
  transfer : Bool
  fetched : Nat
  sent : Nat
  deriving DecidableEq, Repr

/-- The verify pipeline (R61): the AWAIT_VERIFY slot, its start mark, and whether its deadline is RUN_ON. -/
structure Verify where
  slot : Nat
  mark : Nat
  runOn : Bool
  deriving DecidableEq, Repr

/-- The failure cause (R61). -/
inductive Cause where
  | verify | mediaEnd
  deriving DecidableEq, Repr

/-- The LOOPBACK in progress (R61, R170). -/
structure Loop where
  cmd : Nat
  slot : Nat
  fetched : Nat
  sent : Nat
  deriving DecidableEq, Repr

/-- The reception in flight (R83): `started` once its start mark has passed; `stored` bytes have reached the slot. -/
structure Reception where
  slot : Nat
  pos : TapePos
  overrun : Bool
  started : Bool
  stored : Nat
  deriving DecidableEq, Repr

/-- The open missing-stripe window (R83, R90); `counting` is false in a retry until the origin's position is passed. -/
structure Window where
  origin : TapePos
  count : Nat
  counting : Bool
  deriving DecidableEq, Repr

/-- End of data as found (R83, R92). -/
structure EodFound where
  stripe : Nat
  byDirectory : Bool
  deriving DecidableEq, Repr

/-- The reading state of the Tape Transfer Engine (R83); `firstBad` is the place of the first bad copy of n in this round,
which a failure marker keeps (R91). -/
structure ReadState where
  point : Option TapePos
  reception : Option Reception
  asked : Bool
  n : Nat
  floor : Option Nat
  window : Option Window
  retries : Nat
  inRetry : Bool
  retryDue : Bool
  blanks : Nat
  eod : Option EodFound
  markerAsked : Bool
  firstBad : Option TapePos
  deriving DecidableEq, Repr

/-- A READ_FAILED marker's origin and whether a delivery has met it (R30, R91). -/
structure Marker where
  stripe : Nat
  origin : TapePos
  met : Bool
  deriving DecidableEq, Repr

/-- The Tape Transfer Engine; `underrun` marks a run-on over a position that came up with the write queue empty (R110). -/
structure Tte where
  writePoint : Option TapePos
  inFlight : Option InFlight
  verify : Option Verify
  fifo : List Byte
  cause : Option Cause
  loopback : Option Loop
  runOn : Option Nat
  underrun : Bool
  read : Option ReadState
  markers : List Marker
  deriving DecidableEq, Repr

/-! ### Unpack Engine -/

/-- The delivery states (R93). -/
inductive DeliveryState where
  | idle | opening | open_ | finishing | done
  deriving DecidableEq, Repr

/-- The record being delivered (R93): the slot, entry and stripe being decoded, the coded length of the piece and how much
of it has been fetched. -/
structure Delivery where
  number : Nat
  raw : Nat
  stripe : Nat
  slot : Nat
  entry : Nat
  produced : Nat
  compressed : Bool
  pieceAt : Nat
  pieceLength : Nat
  fetched : Nat
  passOver : Bool
  deriving DecidableEq, Repr

/-- The chunk being decoded (R59): STORED or coded, payload bytes left, its size e, bytes produced of it. -/
structure ChunkState where
  stored : Bool
  left : Nat
  size : Nat
  made : Nat
  deriving DecidableEq, Repr

/-- The token being applied (R46): literals, a repeat or a copy with so many bytes to go. -/
inductive Token where
  | none
  | literal (left : Nat)
  | repeat_ (b : Byte) (left : Nat)
  | copy (offset left : Nat)
  deriving DecidableEq, Repr

/-- The decoder's state (R93): a header byte read, the chunk, the token, the last bytes produced (newest first), and the
coded bytes fetched and not yet used. -/
structure Decoder where
  header : Option Byte
  chunk : Option ChunkState
  token : Token
  history : List Byte
  input : List Byte
  deriving DecidableEq, Repr

/-- The Unpack Engine. -/
structure Ue where
  state : DeliveryState
  cmd : Option Nat
  length : Nat
  cursor : Nat
  record : Option Delivery
  output : List Byte
  decoder : Decoder
  crc : Word32
  deriving DecidableEq, Repr

/-! ### Rate Governor -/

/-- Why the tape last stopped under the governor (R104). -/
inductive StopKind where
  | none | underrun | backpressure
  deriving DecidableEq, Repr

/-- What a stopped reading tape waits for (R85, R90, R112, R114): FREE slots up to the threshold R; a start asked for, to be
judged when the tape stands ready; one FREE slot; nothing more. -/
inductive ReadAsk where
  | threshold | asked | anyFree | atOnce
  deriving DecidableEq, Repr

/-- The Rate Governor; `held` is the level at which the position already armed or asked for will be taken (R103), `newRun`
says that the next start begins the run length again although a retry goes on (R114). -/
structure Rg where
  f : Nat
  sampleTime : Option Nat
  level : Nat
  target : Option Nat
  runLength : Option Nat
  stopKind : StopKind
  readStart : ReadAsk
  flushed : Bool
  held : Option Nat
  newRun : Bool
  deriving DecidableEq, Repr

/-! ### Motion Controller -/

/-- Purposes of the mark timer's match targets (R121). -/
inductive Purpose where
  | startMark | passEnd | earlyWarning | locateStop
  deriving DecidableEq, Repr

/-- A match target (R121). -/
structure Target where
  mark : Nat
  purpose : Purpose
  deriving DecidableEq, Repr

/-- The kinds of cartridge (R137). -/
inductive CartKind where
  | data | cleaning
  deriving DecidableEq, Repr

/-- A threading in progress (R117): attempt 1 or 2, the cartridge's kind, and the ticks its 8 s still have. -/
structure Thread where
  attempt : Nat
  kind : CartKind
  timer : Nat
  deriving DecidableEq, Repr

/-- A valid header as a search or a stale recovery keeps it (R125, R130). -/
structure HeaderSeen where
  stripe : Nat
  generation : Nat
  first : Nat
  entries : Nat
  flags : List Byte
  pos : TapePos
  deriving DecidableEq, Repr

/-- What a header search looks for: a stripe (R126), a record's stripe (R127), the end of data (R129), the tail of a stale
directory (R130), or the filemarks of a span of records (R131, R132; `wanted` is 0 where all of them are). -/
inductive SearchGoal where
  | stripe (t : Nat)
  | record (r : Nat)
  | endOfData
  | stale
  | marks (low : Nat) (high : Option Nat) (wanted : Nat)
  deriving DecidableEq, Repr

/-- A header search (R125) with the state of a scan (R128), of a span (R131; `cover` is the record below which every header
has been seen) and of a stale recovery (R130). -/
structure Search where
  goal : SearchGoal
  scan : Bool
  attempt : Nat
  start : TapePos
  window : Option Nat
  blanks : Nat
  floor : Option Nat
  last : Option HeaderSeen
  need : Nat
  found : List Nat
  cover : Nat
  expected : Nat
  held : List HeaderSeen
  highest : Nat
  stored : Nat
  rebuilt : Bool
  deriving DecidableEq, Repr

/-- How a motion command will complete when the tape has stopped; `pos` is the new data-set position, if any. -/
structure Finish where
  result : Result
  detailA : Detail
  detailB : Detail
  pos : Option DsPos
  deriving DecidableEq, Repr

/-- The motion commands (R184). -/
inductive MotionKind where
  | load | unload | rewind | locate | locateEod | space
  deriving DecidableEq, Repr

/-- Where a motion command stands. LOAD: reading the cartridge memory, writing its counters, threading, the cleaning run
and its rewind (R117, R168). UNLOAD: waiting for the intake order, emptying the sides, saving, rewinding, and the slow
recovery (R118, R119). A move: shuttling to a search's start, searching, shuttling to a place, finishing (R120 to R132). -/
inductive JobStage where
  | memory | counters | threading | cleanRun | cleanRewind
  | intake | emptying | saving | rewinding | recoverTension | recoverWind
  | toStart | searching | toPlace | finishing
  | unthreading
  deriving DecidableEq, Repr

/-- What SPACE asked for (R131, R132): its kind (true for filemarks), its count, and the record it began at. -/
structure SpacePlan where
  filemarks : Bool
  count : Int
  origin : Nat
  deriving DecidableEq, Repr

/-- The motion command in progress (R115). -/
structure Job where
  id : Nat
  kind : MotionKind
  stage : JobStage
  search : Option Search
  finish : Option Finish
  space : Option SpacePlan
  byRecord : Bool
  aborted : Bool
  stranded : Bool
  saveCode : Nat
  ciBefore : Nat
  deriving DecidableEq, Repr

/-- The thermal state (R133). -/
inductive Thermal where
  | normal | paused
  deriving DecidableEq, Repr

/-- The Motion Controller; `decel` counts the marks a reposition still passes before the tape stands and runs back (R110;
log entry 27). -/
structure Mc where
  state : MotionState
  pos : Option TapePos
  travel : Travel
  dsPos : Option DsPos
  speedFaults : Nat
  tensionFaults : Nat
  offRun : Nat
  inRun : Nat
  tensionUpRun : Nat
  thread : Option Thread
  thermal : Thermal
  job : Option Job
  targets : List Target
  lastMark : Option Nat
  torqueA : Nat
  torqueB : Nat
  loopOn : Bool
  tensionUp : Bool
  recovery : Option Nat
  slowing : Bool
  resume : Bool
  speed : Nat
  atSpeed : Bool
  runIn : Bool
  decel : Option Nat
  deriving DecidableEq, Repr

/-! ### Cartridge Memory Link -/

/-- The condition of the RAM directory (R138). -/
inductive Condition where
  | valid | stale | absent
  deriving DecidableEq, Repr

/-- What the link knows of the cartridge's valid flag (R138). -/
inductive Recorded where
  | valid | notValid | unknown
  deriving DecidableEq, Repr

/-- A waypoint (R137). -/
structure Waypoint where
  stripe : Nat
  first : Nat
  mark : Nat
  deriving DecidableEq, Repr

/-- A present pass entry (R137): sixteen waypoints, absent ones `none`. -/
structure PassEntry where
  first : Nat
  last : Nat
  firstRecord : Nat
  endMark : Nat
  waypoints : List (Option Waypoint)
  deriving DecidableEq, Repr

/-- The directory copy (R138): header fields, 64 pass entries (`none` is empty), filemark index. -/
structure Directory where
  generation : Nat
  eodStripe : Nat
  eodRecord : Nat
  complete : Bool
  passes : List (Option PassEntry)
  index : List (Nat × Nat)
  deriving DecidableEq, Repr

/-- The counters copy (R138). -/
structure Counters where
  loads : Nat
  uses : Nat
  deriving DecidableEq, Repr

/-- The identity copy (R138): kind byte, echo as read, input at LOAD, serial text. -/
structure Identity where
  kind : Nat
  echo : Nat
  input : Bool
  serial : List Byte
  deriving DecidableEq, Repr

/-- The dirty marks (R138): pass entries, header, index pages (0 to 63), the index as a whole where a session's opening cut it
back (R64; log entry 55), identity page, counters page. -/
structure Dirty where
  passes : List Nat
  header : Bool
  index : List Nat
  wholeIndex : Bool
  identity : Bool
  counters : Bool
  deriving DecidableEq, Repr

/-- The four link operations (R136); the invalidation write and the save name the command they serve. -/
inductive LinkKind where
  | loadRead | invalidate (cmd : Nat) | counters | save
  deriving DecidableEq, Repr

/-- A transaction (R135). -/
inductive Transaction where
  | read (addr len : Nat)
  | write (page : Nat)
  deriving DecidableEq, Repr

/-- The link operation in flight (R136, R138): the transactions left (the first is in progress), retry count, the ticks of
the 5 ms wait, the bytes read so far, and whether an ABORT reached the OPEN_WRITE it serves (R63). -/
structure LinkOp where
  kind : LinkKind
  steps : List Transaction
  retries : Nat
  wait : Option Nat
  got : List Byte
  aborted : Bool
  deriving DecidableEq, Repr

/-- The Cartridge Memory Link. -/
structure Cml where
  condition : Condition
  recorded : Recorded
  directory : Option Directory
  counters : Option Counters
  identity : Option Identity
  kind : CartKind
  dirty : Dirty
  op : Option LinkOp
  deriving DecidableEq, Repr

/-! ### Sensor Sequencer -/

/-- A sensor plan (R150). -/
structure Plan where
  listA : List Nat
  listB : List Nat
  scan : List Nat
  alternate : Bool
  period : Nat
  batch : Nat
  signed : List Nat
  deriving DecidableEq, Repr

/-- A result of a conversion (R152). -/
structure SensorResult where
  input : Nat
  raw : Nat
  onB : Bool
  entry : Nat
  stamp : Nat
  deriving DecidableEq, Repr

/-- The phases of a result half (R150). -/
inductive HalfPhase where
  | filling | awaitCopy | empty
  deriving DecidableEq, Repr

/-- A result half (R150). -/
structure Half where
  phase : HalfPhase
  results : List SensorResult
  deriving DecidableEq, Repr

/-- The sequence in progress (R150): its list's entries and the next one to convert. -/
structure Sequence where
  onB : Bool
  entries : List Nat
  next : Nat
  stamp : Nat
  deriving DecidableEq, Repr

/-- The Sensor Sequencer. -/
structure Ss where
  plan : Plan
  period : Nat
  nextB : Bool
  cursor : Option Nat
  stamp : Nat
  sequence : Option Sequence
  latest : List (Option (Nat × Nat))
  half0 : Half
  half1 : Half
  tail : Nat
  head : Nat
  drops : Nat
  deriving DecidableEq, Repr

/-! ### Health Monitor -/

/-- The record of the last stripe scored (R159). -/
structure Scored where
  verify : Bool
  stripe : Nat
  increment : Nat
  decrement : Nat
  terms : Bool
  maxCorrected : Nat
  rows : Nat
  amplitude : Option Nat
  deriving DecidableEq, Repr

/-- The stage of a cleaning run (R168). -/
inductive CleanStage where
  | none | uses | counters | thread | run | unthread
  deriving DecidableEq, Repr

/-- The Health Monitor; `waiting` mark reports stand before the wear step (R162, log entry 12). -/
structure Hm where
  ci : Nat
  health : Health
  wear : Nat
  waiting : Nat
  last : Option Scored
  cleaning : CleanStage
  deriving DecidableEq, Repr

/-! ### The whole block -/

/-- The external inputs and the panel line (chapter 0). -/
structure Pins where
  present : Bool
  tapeInPath : Bool
  writeProtect : Bool
  panel : Bool
  deriving DecidableEq, Repr

/-- The state of the block. -/
structure State where
  now : Nat
  free : Nat
  dram : List Host.Cell
  cartridge : List Host.Cell
  pins : Pins
  bpu : Bpu
  ci : Ci
  cw : Cw
  pe : Pe
  spm : Spm
  tte : Tte
  ue : Ue
  rg : Rg
  mc : Mc
  cml : Cml
  ss : Ss
  hm : Hm
  pending : List Instr
  deriving DecidableEq, Repr

/-! ### Updates of one block -/

/-- Replaces the buffer DRAM. -/
def State.onDram (s : State) (f : List Host.Cell → List Host.Cell) : State := { s with dram := f s.dram }
/-- Replaces the cartridge memory. -/
def State.onCartridge (s : State) (f : List Host.Cell → List Host.Cell) : State := { s with cartridge := f s.cartridge }
/-- Updates the pins. -/
def State.onPins (s : State) (f : Pins → Pins) : State := { s with pins := f s.pins }
/-- Updates the Buffer Path Unit. -/
def State.onBpu (s : State) (f : Bpu → Bpu) : State := { s with bpu := f s.bpu }
/-- Updates the Command Intake. -/
def State.onCi (s : State) (f : Ci → Ci) : State := { s with ci := f s.ci }
/-- Updates the Completion Writer. -/
def State.onCw (s : State) (f : Cw → Cw) : State := { s with cw := f s.cw }
/-- Updates the Pack Engine. -/
def State.onPe (s : State) (f : Pe → Pe) : State := { s with pe := f s.pe }
/-- Updates the Stripe Pool Manager. -/
def State.onSpm (s : State) (f : Spm → Spm) : State := { s with spm := f s.spm }
/-- Updates the Tape Transfer Engine. -/
def State.onTte (s : State) (f : Tte → Tte) : State := { s with tte := f s.tte }
/-- Updates the Unpack Engine. -/
def State.onUe (s : State) (f : Ue → Ue) : State := { s with ue := f s.ue }
/-- Updates the Rate Governor. -/
def State.onRg (s : State) (f : Rg → Rg) : State := { s with rg := f s.rg }
/-- Updates the Motion Controller. -/
def State.onMc (s : State) (f : Mc → Mc) : State := { s with mc := f s.mc }
/-- Updates the Cartridge Memory Link. -/
def State.onCml (s : State) (f : Cml → Cml) : State := { s with cml := f s.cml }
/-- Updates the Sensor Sequencer. -/
def State.onSs (s : State) (f : Ss → Ss) : State := { s with ss := f s.ss }
/-- Updates the Health Monitor. -/
def State.onHm (s : State) (f : Hm → Hm) : State := { s with hm := f s.hm }

/-! ### Reset values -/

/-- A descriptor disabled, all zero (R180). -/
def Descriptor.blank : Descriptor :=
  { base := 0, pages := 0, kind := .none, mode := .wait, limit := 0, allowDrive := false, allowLink := false,
    enable := false }

/-- No starvation (R179). -/
def Starve.zero : Starve := { tte := 0, upstream := 0, pack := 0, unpack := 0, ring := 0 }

/-- The default plan (R158). -/
def Plan.default_ : Plan :=
  { listA := [2, 3, 4, 5, 6, 7, 8], listB := [2, 3, 0, 1, 9, 10, 11], scan := [], alternate := true, period := 2,
    batch := 8, signed := [] }

/-- The Sensor Sequencer after either reset, but for the latest-value table (R150, R158). -/
def Ss.reset (latest : List (Option (Nat × Nat))) : Ss :=
  { plan := Plan.default_, period := 2 * Config.ticksPerMs, nextB := false, cursor := none, stamp := 0,
    sequence := none, latest := latest, half0 := { phase := .filling, results := [] },
    half1 := { phase := .empty, results := [] }, tail := 0, head := 0, drops := 0 }

/-- The decoder between records (R93). -/
def Decoder.empty : Decoder := { header := none, chunk := none, token := .none, history := [], input := [] }

/-- The Unpack Engine after either reset (R93). -/
def Ue.reset : Ue :=
  { state := .idle, cmd := none, length := 0, cursor := 0, record := none, output := [], decoder := Decoder.empty,
    crc := 0xFFFFFFFF }

/-- The Pack Engine after a reset that leaves this compression setting (R37). -/
def Pe.reset (compression : Bool) : Pe :=
  { intake := [], current := none, next := none, nextRecord := 0, cursor := 0, fifo := [], coder := .idle,
    emit := .begin_, chunk := [], history := [], table := [], literals := [], output := [], crc := 0xFFFFFFFF,
    taken := 0, compressed := true, entryOpen := false, pieceFirst := false, anyPlaced := false, pieceCoded := 0,
    compression := compression }

/-- The Tape Transfer Engine after either reset (R61, R83). -/
def Tte.reset : Tte :=
  { writePoint := none, inFlight := none, verify := none, fifo := [], cause := none, loopback := none, runOn := none,
    underrun := false, read := none, markers := [] }

/-- The Command Intake after either reset; the numbering of commands goes on (R190). -/
def Ci.reset (nextId : Nat) : Ci :=
  { intake := 0, outstanding := [], motionQueue := [], dataQueue := [], configWait := [], aborts := [],
    nextId := nextId }

/-- The Completion Writer after either reset, with its status write asked (R190). -/
def Cw.reset (shown : List Byte) : Cw :=
  { pending := [], tail := 0, head := 0, mask := 0, attn := false, slotKinds := [], recordAsked := false,
    tailDue := none, statusAsked := true, shown := shown }

/-- No dirty mark (R138). -/
def Dirty.clean : Dirty :=
  { passes := [], header := false, index := [], wholeIndex := false, identity := false, counters := false }

/-- The link without a cartridge read (R138). -/
def Cml.reset : Cml :=
  { condition := .absent, recorded := .unknown, directory := none, counters := none, identity := none, kind := .data,
    dirty := Dirty.clean, op := none }

/-- The ring writes that both resets ask (R158, R180, R181, R190): the sixteen descriptors, the reset word, the sensor
head, the completion head, the attention mask and the part status block, in this order (DESIGN CHOICE, log entry 89). -/
def resetRing : List RingReq :=
  (List.range 16).map RingReq.zeroDescriptor
    ++ [.zeroWord 268, .zeroWord 260, .zeroWord 256, .zeroWord 264, .status]

/-- Sixteen descriptors disabled (R180, R181). -/
def clearedTable : List Descriptor := List.replicate 16 Descriptor.blank

/-- The state after a power-on reset with these inputs and this cartridge memory (R116, R180 and the reset tables of every
chapter). -/
def State.powerOn (present tapeInPath writeProtect : Bool) (mem : List Host.Cell) : State where
  now := 0
  free := 0
  dram := []
  cartridge := mem
  pins := { present := present, tapeInPath := tapeInPath, writeProtect := writeProtect, panel := false }
  bpu :=
    { captured := zeros 256, effective := clearedTable, upstream := [], held := [], driveAnswer := none,
      linkAnswer := none, starve := Starve.zero, rewrites := 0, ring := resetRing }
  ci := Ci.reset 0
  cw := Cw.reset (zeros 24)
  pe := Pe.reset true
  spm :=
    { slots := [], direction := .none, sealInterval := 0, sealTimer := none, sealing := none, clearing := false,
      dropFrom := none }
  tte := Tte.reset
  ue := Ue.reset
  rg :=
    { f := 0, sampleTime := none, level := 0, target := none, runLength := none, stopKind := .none,
      readStart := .threshold, flushed := false, held := none, newRun := false }
  mc :=
    { state := if tapeInPath then .stranded else if present then .present else .empty,
      pos := none, travel := .stopped, dsPos := none, speedFaults := 0, tensionFaults := 0, offRun := 0, inRun := 0,
      tensionUpRun := 0, thread := none, thermal := .normal, job := none, targets := [], lastMark := none,
      torqueA := 1024, torqueB := 1024, loopOn := false, tensionUp := false, recovery := none, slowing := false,
      resume := false, speed := 0, atSpeed := false, runIn := false, decel := none }
  cml := Cml.reset
  ss := Ss.reset (List.replicate 12 none)
  hm := { ci := 0, health := .good, wear := 0, waiting := 0, last := none, cleaning := .none }
  pending := []

/-- The machine right after reset: power-on with no cartridge and no tape in the path (log entry 6). -/
def State.reset : State := State.powerOn false false false []

end Sys2Proof.Machine
end

