-- ==== Sys2Proof/Machine/Tape.lean ====
section
/-! DEFINITION. Places on tape (chapter 1): directions of passes, stripe positions, targets clamped to the usable length. -/

namespace Sys2Proof.Machine

/-- Even passes run forward (R2). -/
def isForward (pass : Nat) : Bool := pass % 2 == 0

/-- The mark at which a pass begins (R2). -/
def passStart (pass : Nat) : Nat := if isForward pass then 0 else Config.lastMark

/-- The mark at which a pass ends (R2). -/
def passEnd (pass : Nat) : Nat := if isForward pass then Config.lastMark else 0

/-- Marks remaining in the pass from a place (R3). -/
def TapePos.left (p : TapePos) : Nat := if isForward p.pass then Config.lastMark - p.mark else p.mark

/-- Marks from the pass's starting end to a place (R3, R77). -/
def TapePos.offset (p : TapePos) : Nat := if isForward p.pass then p.mark else Config.lastMark - p.mark

/-- The place at an offset from the pass's starting end, clamped by R1. -/
def placeAt (pass offset : Nat) : TapePos :=
  { pass := pass
    mark := if isForward pass then min offset Config.lastMark else Config.lastMark - min offset Config.lastMark }

/-- The place `n` marks further in the pass direction, clamped by R1. -/
def TapePos.onward (p : TapePos) (n : Nat) : TapePos := placeAt p.pass (p.offset + n)

/-- The place `n` marks before, in the pass direction, clamped by R1. -/
def TapePos.before (p : TapePos) (n : Nat) : TapePos := placeAt p.pass (p.offset - n)

/-- The next stripe position (R3, R67). -/
def TapePos.nextPosition (p : TapePos) : TapePos := p.onward Config.positionMarks

/-- The stripe position that contains a place (R3, R90). -/
def TapePos.position (p : TapePos) : TapePos :=
  placeAt p.pass (p.offset / Config.positionMarks * Config.positionMarks)

/-- A stripe can be started here (R3). -/
def TapePos.startable (p : TapePos) : Bool := decide (Config.positionMarks ≤ p.left)

/-- Position 0 of the next pass (R3, R66). -/
def TapePos.nextPass (p : TapePos) : TapePos := { pass := p.pass + 1, mark := passStart (p.pass + 1) }

/-- One place lies further along the pass than another (R76). -/
def TapePos.furtherThan (p q : TapePos) : Bool := decide (q.offset < p.offset)

/-- One place lies at another or after it in the order in which the passes are written (R2, R3). -/
def TapePos.reaches (p q : TapePos) : Bool := decide (q.pass < p.pass) || (p.pass == q.pass && !q.furtherThan p)

/-- The early-warning zone (R4). -/
def earlyWarningAt (p : Option TapePos) : Bool :=
  match p with
  | some q => q.pass == Config.lastPass && decide (q.mark ≤ 1200)
  | none => false

/-- The segment of a pass a start mark lies in, 0 to 15 (R77, R137). -/
def TapePos.segment (p : TapePos) : Nat := p.offset / 3750

/-- The travel direction of a pass (R2). -/
def passTravel (pass : Nat) : Travel := if isForward pass then .forward else .reverse

/-- The other direction. -/
def Travel.turned : Travel → Travel
  | .forward => .reverse
  | .reverse => .forward
  | .stopped => .stopped

end Sys2Proof.Machine
end

