-- ==== Sys2Proof/Machine/Format.lean ====
section
/-! DEFINITION. The byte formats: CRC-32 (R15), the stripe header and its checks (R7, R8), the directory entry (R9), the
codes of chapter 12's formats, completion records, sensor records and the cartridge-memory layouts of chapter 8. -/

namespace Sys2Proof.Machine

/-! ### CRC-32 -/

/-- One shift of the CRC register (R15, step 3). -/
def crcShift (r : Word32) : Word32 := if r.getLsbD 0 then (r >>> 1) ^^^ 0xEDB88320#32 else r >>> 1

/-- One byte combined into the CRC register (R15, steps 2 and 3). -/
def crcByte (r : Word32) (b : Byte) : Word32 :=
  let x := r ^^^ b.setWidth 32
  crcShift (crcShift (crcShift (crcShift (crcShift (crcShift (crcShift (crcShift x)))))))

/-- Bytes combined into the register in order (R15). -/
def crcBytes (r : Word32) (bs : List Byte) : Word32 := bs.foldl crcByte r

/-- The CRC-32 of a sequence of bytes (R15). -/
def crc32 (bs : List Byte) : Word32 := ~~~(crcBytes 0xFFFFFFFF bs)

/-! ### Stripe header -/

/-- The fields of a stripe header (R7; layout in chapter 1, Formats). -/
structure Header where
  stripe : Nat
  generation : Nat
  pass : Nat
  copy : Nat
  mark : Nat
  entries : Nat
  first : Nat
  dataBytes : Nat
  deriving DecidableEq, Repr

/-- Reads a header's fields. -/
def Header.ofBytes (b : List Byte) : Header :=
  { stripe := fieldAt b 0 4, generation := fieldAt b 4 2, pass := fieldAt b 6 1, copy := fieldAt b 7 1,
    mark := fieldAt b 8 2, entries := fieldAt b 10 2, first := fieldAt b 12 4, dataBytes := fieldAt b 16 4 }

/-- Bytes 0 to 59 of a header. -/
def Header.body (h : Header) : List Byte :=
  toLe 4 h.stripe ++ toLe 2 h.generation ++ toLe 1 h.pass ++ toLe 1 h.copy ++ toLe 2 h.mark ++ toLe 2 h.entries
    ++ toLe 4 h.first ++ toLe 4 h.dataBytes ++ zeros 40

/-- The header as sealing writes it: pass, start mark, copy and CRC zero (R7, R22). -/
def Header.sealed (stripe generation entries first dataBytes : Nat) : List Byte :=
  Header.body { stripe, generation, pass := 0, copy := 0, mark := 0, entries, first, dataBytes } ++ zeros 4

/-- The header stamped at arming: pass, start mark and copy over the sealed bytes, and the CRC of bytes 0-59 (R7). -/
def stampHeader (old : List Byte) (p : TapePos) (copy : Nat) : List Byte :=
  let body := old.take 6 ++ toLe 1 p.pass ++ toLe 1 copy ++ toLe 2 p.mark ++ (old.drop 10).take 50
  body ++ toLe 4 (crc32 body).toNat

/-- The checks of R8 but for position and the channel's own flag. -/
def headerFieldsOk (b : List Byte) : Bool :=
  let h := Header.ofBytes b
  (crc32 (b.take 60)).toNat == fieldAt b 60 4
    && decide (h.copy ≤ 3) && h.generation != 0
    && decide (1 ≤ h.entries) && decide (h.entries ≤ Config.maxEntries)
    && decide (Config.headerSize + h.dataBytes + 16 * h.entries ≤ Config.stripeSize)
    && ((b.drop 20).take 40).all (· == 0)

/-- The header-valid judgement of R8 at a position. -/
def headerValidAt (channel : Bool) (b : List Byte) (p : TapePos) : Bool :=
  channel && headerFieldsOk b && fieldAt b 6 1 == p.pass && fieldAt b 8 2 == p.mark

/-! ### Record directory entry -/

/-- The fields of a directory entry (R9; layout in chapter 1, Formats). -/
structure Entry where
  index : Nat
  raw : Nat
  coded : Nat
  filemark : Bool
  first : Bool
  last : Bool
  compressed : Bool
  crc : Nat
  deriving DecidableEq, Repr

/-- The flags byte of an entry. -/
def Entry.flags (e : Entry) : Nat := byteOfBits [e.filemark, e.first, e.last, e.compressed]

/-- An entry's sixteen bytes. -/
def Entry.bytes (e : Entry) : List Byte :=
  toLe 2 e.index ++ toLe 3 e.raw ++ toLe 3 e.coded ++ toLe 1 e.flags ++ zeros 3 ++ toLe 4 e.crc

/-- Reads an entry's fields. -/
def Entry.ofBytes (b : List Byte) : Entry :=
  let f := b.getD 8 0
  { index := fieldAt b 0 2, raw := fieldAt b 2 3, coded := fieldAt b 5 3, filemark := bitOf f 0, first := bitOf f 1,
    last := bitOf f 2, compressed := bitOf f 3, crc := fieldAt b 12 4 }

/-- The zero bytes and zero flag bits of an entry are zero (R9). -/
def entryZerosOk (b : List Byte) : Bool :=
  ((b.drop 9).take 3).all (· == 0) && decide ((b.getD 8 0).toNat < 16)

/-- The flags form a combination of R10 or R11: a filemark's other fields are those R11 gives, a zero-length record is
first and last piece with no coded bytes, and for any other record R10's table has all four combinations. -/
def Entry.shapeOk (e : Entry) : Bool :=
  if e.filemark then e.first && e.last && !e.compressed && e.raw == 0 && e.coded == 0 && e.crc == 0
  else e.raw != 0 || (e.first && e.last && e.coded == 0)

/-- An entry's flags byte names a filemark (chapter 1, Formats). -/
def flagFilemark (b : Byte) : Bool := bitOf b 0
/-- An entry's flags byte sets first piece. -/
def flagFirst (b : Byte) : Bool := bitOf b 1
/-- An entry's flags byte sets last piece. -/
def flagLast (b : Byte) : Bool := bitOf b 2

/-- Offset in a stripe of entry `i` (R6). -/
def entryOffset (i : Nat) : Nat := Config.stripeSize - 16 * (i + 1)

/-- The free space of a stripe (R6, R52). -/
def freeSpace (dataBytes entries : Nat) : Nat := Config.stripeSize - Config.headerSize - dataBytes - 16 * entries

/-! ### Codes of chapter 12 -/

/-- The code of a motion state (chapter 12, Formats). -/
def MotionState.code : MotionState → Nat
  | .empty => 0 | .present => 1 | .threading => 2 | .ready => 3 | .moving => 4 | .streaming => 5
  | .repositioning => 6 | .turnaround => 7 | .unthreading => 8 | .cleaning => 9 | .fault => 10 | .stranded => 11

/-- The code of a travel direction (chapter 12, Formats). -/
def Travel.code : Travel → Nat
  | .stopped => 0 | .forward => 1 | .reverse => 2

/-- The code of a pool direction (chapter 12, Formats). -/
def Direction.code : Direction → Nat
  | .none => 0 | .writeOpen => 1 | .writeFailed => 2 | .readOpen => 3

/-- The code of a health state (chapter 12, Formats). -/
def Health.code : Health → Nat
  | .good => 0 | .cleanAdvised => 1 | .cleanRequired => 2

/-- The code of a result (chapter 12, Formats). -/
def Result.code : Result → Nat
  | .ok => 0 | .okEarlyWarning => 1 | .refusedState => 16 | .refusedArgument => 17 | .pendingWrite => 18
  | .notAtBoundary => 19 | .writeProtected => 20 | .directoryStale => 21 | .aborted => 32 | .writeFailed => 33
  | .endOfMedia => 34 | .mediaError => 48 | .integrityError => 49 | .codingError => 50 | .filemark => 51
  | .endOfData => 52 | .shortRecord => 53 | .longRecord => 54 | .locateFailed => 64 | .cartridgeMemoryError => 65
  | .threadFailed => 66 | .motionFault => 67 | .cleaningExpired => 68 | .cleaned => 69

/-- The code of an event-note kind (R187). -/
def NoteKind.code : NoteKind → Nat
  | .cartridgePresent => 1 | .cartridgeRemoved => 2 | .cleaningRequest => 3 | .thermalPause => 4 | .thermalResume => 5
  | .motionFault => 6 | .writeFailed => 7 | .mapRefused => 8 | .directoryNotSaved => 9

/-- The code of a directory condition (R84, R117). -/
def Condition.code : Condition → Nat
  | .valid => 0 | .stale => 1 | .absent => 2

/-- The command code of a command (each command's own rule). -/
def HostCmd.code : HostCmd → Nat
  | .setPool _ => 1 | .setCompression _ => 2 | .setSealInterval _ => 3 | .sensorPlan _ => 4 | .setHealth _ => 5
  | .queryHealth => 6 | .loopback _ => 7 | .load => 16 | .unload => 17 | .rewind => 18 | .locate _ _ => 19
  | .locateEod => 20 | .space _ _ => 21 | .openWrite => 32 | .streamRecord _ _ => 33 | .writeMark _ _ => 34
  | .flush => 35 | .openRead => 36 | .deliverRecord _ => 37 | .close => 48 | .abort => 49 | .unknown c => c

/-! ### Details -/

/-- `n` stated little-endian bytes of a detail. -/
def dv (n x : Nat) : Detail := (toLe n x).map some

/-- `n` detail bytes the spec does not state (log entry 5). -/
def du (n : Nat) : Detail := List.replicate n none

/-- Eight unstated bytes. -/
def noDetail : Detail := du 8

/-- A detail filled up to eight bytes with unstated ones. -/
def Detail.pad (d : Detail) : Detail := (d ++ noDetail).take 8

/-- The bytes of a detail as they go into the ring: unstated ones are free values, numbered from `n`. -/
def Detail.fill : Nat → Detail → List Byte
  | _, [] => []
  | n, some b :: d => b :: Detail.fill (n + 1) d
  | n, none :: d => Config.freeByte n :: Detail.fill (n + 1) d

/-- The two's complement of a count in a 32-bit field (R131). -/
def int32 (x : Int) : Nat := (x % 4294967296).toNat

/-- A completion record or event note, 32 bytes (chapter 12, Formats); `n` numbers its free values. -/
def Item.bytes (n : Nat) (i : Item) : List Byte :=
  toLe 2 i.tag.toNat ++ toLe 1 i.code ++ toLe 1 i.value ++ toLe 1 (if i.cmd.isSome then 0 else 1)
    ++ toLe 1 i.health.code ++ toLe 1 i.motion.code ++ toLe 1 (i.direction.code + 4 * i.travel.code)
    ++ Detail.fill n i.detailA.pad ++ Detail.fill (n + 8) i.detailB.pad ++ toLe 4 i.stripe ++ toLe 4 i.record

/-! ### Sensor records -/

/-- A raw value in the record's format (R153). -/
def sensorValue (signed : Bool) (raw : Nat) : Nat :=
  if signed then ((((raw : Int) - 2048) * 16) % 65536).toNat else raw * 16

/-- Two inputs in one byte, the lower place in the low bits (chapter 9, Formats). -/
def inputPairs : List Nat → List Byte
  | a :: b :: rest => BitVec.ofNat 8 (a % 16 + 16 * (b % 16)) :: inputPairs rest
  | [a] => [BitVec.ofNat 8 (a % 16)]
  | [] => []

/-- A sensor record, 32 bytes (R153; chapter 9, Formats). -/
def sensorRecord (plan : Plan) (half drops : Nat) (rs : List SensorResult) : List Byte :=
  let pad := 8 - rs.length
  let first := rs.headD { input := 0, raw := 0, onB := false, entry := 0, stamp := 0 }
  toLe 4 first.stamp ++ toLe 1 half ++ toLe 1 rs.length
    ++ toLe 1 (first.entry % 8 + (if first.onB then 128 else 0)) ++ toLe 1 drops
    ++ inputPairs (rs.map (·.input) ++ List.replicate pad 0)
    ++ rs.flatMap (fun r => toLe 2 (sensorValue (plan.signed.contains r.input) r.raw)) ++ zeros (2 * pad)
    ++ zeros 4

/-! ### Cartridge memory -/

/-- A waypoint's twelve bytes (chapter 8, Formats). -/
def waypointBytes : Option Waypoint → List Byte
  | none => zeros 12
  | some w => toLe 4 w.stripe ++ toLe 4 w.first ++ toLe 2 w.mark ++ toLe 1 1 ++ zeros 1

/-- A pass entry's 208 bytes (chapter 8, Formats). -/
def passEntryBytes : Option PassEntry → List Byte
  | none => zeros 208
  | some p =>
    toLe 4 p.first ++ toLe 4 p.last ++ toLe 4 p.firstRecord ++ toLe 2 p.endMark ++ toLe 1 1 ++ zeros 1
      ++ p.waypoints.flatMap waypointBytes

/-- Reads a waypoint (R137), its present-flag byte as that of an entry (log entry 74). -/
def waypointOf (b : List Byte) : Option Waypoint :=
  if b.getD 10 0 == 0 then none
  else some { stripe := fieldAt b 0 4, first := fieldAt b 4 4, mark := fieldAt b 8 2 }

/-- Reads a pass entry (R137). A present-flag byte other than 0 or 1 counts as set (DESIGN CHOICE, log entry 74). -/
def passEntryOf (b : List Byte) : Option PassEntry :=
  if b.getD 14 0 == 0 then none
  else some
    { first := fieldAt b 0 4, last := fieldAt b 4 4, firstRecord := fieldAt b 8 4, endMark := fieldAt b 12 2,
      waypoints := (List.range 16).map fun k => waypointOf ((b.drop (16 + 12 * k)).take 12) }

/-- The directory header page (chapter 8, Formats). -/
def headerPage (valid : Bool) (d : Directory) : List Byte :=
  toLe 1 (if valid then 1 else 0) ++ toLe 1 (if d.complete then 1 else 0) ++ toLe 2 d.generation ++ toLe 4 d.eodStripe
    ++ toLe 4 d.eodRecord ++ toLe 2 d.index.length ++ zeros 50

/-- The counters page (chapter 8, Formats). -/
def countersPage (c : Counters) : List Byte := toLe 4 c.loads ++ toLe 2 c.uses ++ zeros 58

/-- The identity page, its echo set to the input (R146; chapter 8, Formats). -/
def identityPage (i : Identity) : List Byte :=
  toLe 1 i.kind ++ toLe 1 (if i.input then 1 else 0) ++ (i.serial ++ zeros 32).take 32 ++ zeros 30

/-- The pass table's bytes from its start (R137). -/
def passTableBytes (d : Directory) : List Byte := d.passes.flatMap passEntryBytes

/-- An index page: eight pairs from position 8 × k (R137); entries at or beyond the count are written as zeros (DESIGN CHOICE, log
entry 71). -/
def indexPage (d : Directory) (k : Nat) : List Byte :=
  ((((d.index.drop (8 * k)).take 8).flatMap fun p => toLe 4 p.1 ++ toLe 4 p.2) ++ zeros 64).take 64

/-- Pages of the pass table that entry `p` lies on (R137). -/
def passPages (p : Nat) : List Nat :=
  let from_ := (256 + 208 * p) / Config.linkPage
  [from_, from_ + 1, from_ + 2, from_ + 3]

end Sys2Proof.Machine
end

