-- ==== Sys2Proof/Machine/Flags.lean ====
section
/-! DEFINITION. Conditions read off the state: regions in effect, the part status block, ATTN (R188, R189), the reported
position, the amplitude term, engines that hold state (R174). -/

namespace Sys2Proof.Machine

/-- The region of a single-instance kind, if one is in effect (R173, R174). -/
def State.region (s : State) (k : RegionKind) : Option Descriptor :=
  s.bpu.effective.find? fun d => d.enable && d.kind == k

/-- The number of slots of `bytes` bytes in a ring's region; 0 when none is in effect (R154, R182, R187). -/
def State.ringSlots (s : State) (k : RegionKind) (bytes : Nat) : Nat :=
  match s.region k with
  | some d => d.pages * Config.pageSize / bytes
  | none => 0

/-- The address of a ring's slot (R154, R182, R187). -/
def State.ringAddr (s : State) (k : RegionKind) (bytes i : Nat) : Nat :=
  match s.region k with
  | some d => d.base + bytes * i
  | none => 0

/-- A byte a posting line holds for an address (R177). -/
def postedByte (q : List UpReq) (a : Nat) : Option Byte :=
  q.foldl (fun found r =>
    match r with
    | .line block bytes => if block ≤ a ∧ a < block + 8 then ((bytes.getD (a - block) none).or found) else found
    | .access _ => found) none

/-- A byte of DRAM with posted bytes laid over it (R177, R183). -/
def State.seen (s : State) (a : Nat) : Byte := (postedByte s.bpu.upstream a).getD (Memory.read s.dram a)

/-- `n` bytes of DRAM with posted bytes laid over them (R177, R183). -/
def State.seenBytes (s : State) : Nat → Nat → List Byte
  | _, 0 => []
  | a, n + 1 => s.seen a :: State.seenBytes s (a + 1) n

/-- The position the part reports: the directory's end of data while writing, else the data-set position (R64, R187). -/
def State.reported (s : State) : Nat × Nat :=
  match s.spm.direction, s.cml.directory with
  | .writeOpen, some d => (d.eodStripe, d.eodRecord)
  | .writeFailed, some d => (d.eodStripe, d.eodRecord)
  | _, _ =>
    match s.mc.dsPos with
    | some p => (p.stripe, p.record)
    | none => (Config.absent32, Config.absent32)

/-- The early-warning condition (R4). -/
def State.earlyWarning (s : State) : Bool := earlyWarningAt s.mc.pos

/-- The fields of the part status block, 24 bytes (R189; chapter 12, Formats). -/
def State.statusBytes (s : State) : List Byte :=
  toLe 2 s.ci.intake ++ toLe 2 s.cw.tail ++ toLe 2 s.ss.tail ++ toLe 1 s.mc.state.code
    ++ toLe 1 ((s.mc.pos.map (·.pass)).getD 255) ++ toLe 2 ((s.mc.pos.map (·.mark)).getD 65535)
    ++ toLe 1 s.mc.travel.code ++ toLe 1 s.spm.direction.code ++ toLe 1 s.hm.health.code ++ toLe 1 s.rg.level
    ++ toLe 2 s.hm.ci ++ toLe 4 s.reported.1 ++ toLe 4 s.reported.2

/-- The completion ring is full or taken as full (R187). -/
def State.completionFull (s : State) : Bool :=
  let n := s.ringSlots .completion 32
  n == 0 || decide (n ≤ s.cw.head) || (s.cw.tail + 1) % n == s.cw.head

/-- The sensor ring is full or taken as full (R154). -/
def State.sensorFull (s : State) : Bool :=
  let n := s.ringSlots .sensor 32
  n == 0 || decide (n ≤ s.ss.head) || (s.ss.tail + 1) % n == s.ss.head

/-- The ring slots from the captured head up to the tail, modulo the slot count (R188). A head at or above the slot count is taken
modulo it (DESIGN CHOICE, log entry 105). -/
def unreadSlots (n head tail : Nat) : List Nat :=
  if n = 0 then [] else (List.range ((tail + n - head % n) % n)).map fun k => (head + k) % n

/-- The kind of the record written in a ring slot: true for a note (R188). -/
def slotIsNote (kinds : List (Nat × Bool)) (i : Nat) : Option Bool := (kinds.find? fun e => e.1 == i).map (·.2)

/-- What R188 says ATTN is; the sensor tail is the one last written into the status block. -/
def State.attnCondition (s : State) : Bool :=
  let unread := unreadSlots (s.ringSlots .completion 32) s.cw.head s.cw.tail
  unread.any (fun i =>
      match slotIsNote s.cw.slotKinds i with
      | some false => !s.cw.mask.testBit 0
      | some true => !s.cw.mask.testBit 1
      | none => false)
    || (fieldAt s.cw.shown 4 2 != s.ss.head && !s.cw.mask.testBit 2)

/-- The lowest present raw value of inputs 4 to 7 (R151, R161). -/
def State.amplitude (s : State) : Option Nat :=
  (((s.ss.latest.drop 4).take 4).filterMap (·.map (·.1))).min?

/-- The tape counts as threaded in every motion state but EMPTY and PRESENT (R155). -/
def MotionState.threaded : MotionState → Bool
  | .empty | .present => false
  | _ => true

/-- The threaded states in which marks can pass a locked servo (R115, R121, R155): THREADING ends with servo lock, and in READY
the tape stands (DEDUCED, log entry 116). -/
def MotionState.running : MotionState → Bool
  | .moving | .streaming | .repositioning | .turnaround | .unthreading | .cleaning | .fault | .stranded => true
  | _ => false

/-- An UNLOAD is in progress (R118). -/
def State.unloading (s : State) : Bool :=
  match s.mc.job with
  | some j => j.kind == .unload
  | none => false

/-- The speed cap of the health state (R159). -/
def Hm.cap (h : Hm) : Nat := if h.health = .cleanRequired then 3 else 5

/-- The rewrite threshold of the health state (R71, R159). -/
def Hm.threshold (h : Hm) : Nat := if h.health = .cleanRequired then 4 else 6

/-- Milliseconds of the model's clock (log entry 1). -/
def State.ms (s : State) : Nat := s.now / Config.ticksPerMs

/-- The engine of a region kind holds state (R174). -/
def State.holdsState (s : State) : RegionKind → Bool
  | .command | .completion =>
    !s.ci.outstanding.isEmpty || s.cw.tail != s.cw.head || !s.cw.pending.isEmpty || s.cw.tailDue.isSome
  | .pool => s.spm.direction != .none || s.tte.loopback.isSome
  | .pack => s.pe.current.isSome || s.pe.next.isSome
  | .unpack => s.ue.state == .opening || s.ue.state == .open_ || s.ue.state == .finishing
  | .none | .plain | .sensor => false

end Sys2Proof.Machine
end

