-- ==== Sys2Proof/Machine/Ops.lean ====
section
/-! DEFINITION. Operations every block uses: answers, ring requests, completions and event notes (R187), the health state
(R161 to R165) and the rate estimate (R105 to R109). -/

namespace Sys2Proof.Machine

/-! ### Port and ring -/

/-- Answers an initiator's access (R171). -/
def State.answer (s : State) (who : Initiator) (okay : Bool) (bytes : List Byte) : State :=
  s.onBpu fun b =>
    match who with
    | .drive => { b with driveAnswer := some { okay := okay, bytes := bytes } }
    | .link => { b with linkAnswer := some { okay := okay, bytes := bytes } }

/-- Answers an access ERROR: a read returns zeros (R171). -/
def State.answerError (s : State) (a : Access) : State :=
  s.answer a.who false (if a.write then [] else zeros
    (match a.width with | .w1 => 1 | .w2 => 2 | .w4 => 4 | .w8 => 8))

/-- Asks for a transfer at place 6 of the arbiter (R179). -/
def State.askRing (s : State) (r : RingReq) : State := s.onBpu fun b => { b with ring := b.ring ++ [r] }

/-- Asks for a status write; changes while one waits are carried by it (R189). -/
def State.askStatus (s : State) : State :=
  if s.cw.statusAsked then s else (s.onCw fun c => { c with statusAsked := true }).askRing .status

/-- A changed field of the part status block asks for a status write (R189). -/
def State.noticeStatus (s : State) : State := if s.statusBytes = s.cw.shown then s else s.askStatus

/-- ATTN judged anew (R188). -/
def State.judgeAttn (s : State) : State := s.onCw fun c => { c with attn := s.attnCondition }

/-! ### Completions and notes -/

/-- The full test: with an item waiting, no record under way and room in the ring, the oldest item's record is asked (R187). -/
def State.tryRecord (s : State) : State :=
  if s.cw.pending.isEmpty || s.cw.recordAsked || s.cw.tailDue.isSome || s.completionFull then s
  else (s.onCw fun c => { c with recordAsked := true }).askRing .completion

/-- An item with the stamps of the moment it is handed over (R187). -/
def State.stamp (s : State) (cmd : Option Nat) (tag : BitVec 16) (code value : Nat) (a b : Detail) : Item :=
  { cmd := cmd, tag := tag, code := code, value := value, health := s.hm.health, motion := s.mc.state,
    direction := s.spm.direction, travel := s.mc.travel, stripe := s.reported.1, record := s.reported.2,
    detailA := a, detailB := b }

/-- Completes an outstanding command: it leaves its queue and its completion joins the pending list (R187). -/
def State.complete (s : State) (id : Nat) (r : Result) (a b : Detail) : State :=
  match s.ci.outstanding.find? fun t => t.id == id && t.stage != .handed with
  | none => s
  | some t =>
    let s1 := s.onCi fun c =>
      { c with
        outstanding := c.outstanding.map fun u => if u.id == id then { u with stage := .handed } else u
        motionQueue := c.motionQueue.filter (· != id)
        dataQueue := c.dataQueue.filter (· != id)
        configWait := c.configWait.filter (· != id)
        aborts := c.aborts.filter (· != id) }
    (s1.onCw fun c => { c with pending := c.pending ++ [s.stamp (some id) t.tag t.cmd.code r.code a b] }).tryRecord

/-- Completes with no detail that the spec states. -/
def State.completeBare (s : State) (id : Nat) (r : Result) : State := s.complete id r noDetail noDetail

/-- Posts an event note; one of its kind that still waits is counted up instead (R187). -/
def State.note (s : State) (k : NoteKind) (a b : Detail) : State :=
  if s.cw.pending.any fun i => i.cmd.isNone && i.code == k.code then
    s.onCw fun c =>
      { c with pending := c.pending.map fun i =>
          if i.cmd.isNone && i.code == k.code then { i with value := min 255 (i.value + 1) } else i }
  else
    (s.onCw fun c => { c with pending := c.pending ++ [s.stamp none 0 k.code 1 a b] }).tryRecord

/-- A command's stage changes (R183, R184). -/
def State.setStage (s : State) (id : Nat) (g : Stage) : State :=
  s.onCi fun c =>
    { c with outstanding := c.outstanding.map fun u => if u.id == id then { u with stage := g } else u }

/-! ### Health (R161 to R165) -/

/-- The first line of R163's table that applies. -/
def healthNext (ci : Nat) (h : Health) : Health :=
  if 700 ≤ ci then .cleanRequired
  else if h = .cleanRequired ∧ ci < 600 then .cleanAdvised
  else if h = .good ∧ 400 ≤ ci then .cleanAdvised
  else if h = .cleanAdvised ∧ ci < 300 then .good
  else h

/-- The effects of a change of health state, in R164's order; `cause` is the note's cause byte. -/
def State.enterHealth (s : State) (h : Health) (cause : Nat) : State :=
  if h = s.hm.health then s
  else
    let s1 := s.onHm fun m => { m with health := h }
    let s2 :=
      if h = .good then s1
      else s1.note .cleaningRequest (dv 2 s1.hm.ci ++ dv 1 h.code ++ dv 1 cause ++ du 4)
        (dv 4 ((s1.hm.last.map (·.stripe)).getD Config.absent32) ++ du 4)
    let s3 := s2.onPins fun p => { p with panel := h == .cleanRequired }
    if h = .cleanRequired then
      s3.onRg fun r => { r with level := min r.level 3, target := none, held := r.held.map (min · 3) }
    else s3

/-- The index changes, clamped to 0 to 1000, and the state is evaluated by R163. -/
def State.setIndex (s : State) (ci cause : Nat) : State :=
  let s1 := s.onHm fun m => { m with ci := min ci 1000 }
  s1.enterHealth (healthNext s1.hm.ci s1.hm.health) cause

/-- The record R161 makes of a stripe: `needs` when it counts as needing a rewrite or retry (R160). -/
def scoreOf (verify needs : Bool) (counts : Option Counts) (stripe : Nat) (amplitude : Option Nat) : Scored :=
  let corrected := (counts.map (·.maxCorrected)).getD 0
  let weak := match amplitude with | some v => decide (v < 2400) | none => false
  let sound := match amplitude with | some v => decide (2400 ≤ v) | none => false
  { verify := verify, stripe := stripe
    increment := (if needs then 8 else 0) + (if counts.isSome && decide (8 ≤ corrected) then 2 else 0)
      + (if weak then 3 else 0)
    decrement := if !needs && counts.isSome && decide (corrected ≤ 2) && sound then 1 else 0
    terms := counts.isSome, maxCorrected := corrected, rows := (counts.map (·.rows)).getD 0, amplitude := amplitude }

/-- Scores a stripe (R161): the index, then the state with its effects (R163, R164), then the record of the last scored outcome,
so that a CLEANING_REQUEST note that the score brings names the outcome scored before it. -/
def State.score (s : State) (verify needs : Bool) (counts : Option Counts) (stripe : Nat) : State :=
  let r := scoreOf verify needs counts stripe s.amplitude
  (s.setIndex (s.hm.ci + r.increment - r.decrement) 0).onHm fun m => { m with last := some r }

/-- A mark passed reaches the wear accumulator (R162); one that would wrap it waits for the wear step (log entry 12). -/
def State.markWear (s : State) : State :=
  s.onHm fun m =>
    if m.waiting = 0 ∧ m.wear < 65535 then { m with wear := m.wear + 1 } else { m with waiting := m.waiting + 1 }

/-! ### Rate estimate and level (R105 to R109) -/

/-- The sample of an interval in ms (R105, steps 1 and 2). -/
def rateSample (dt : Nat) : Nat := min (16000 / max 1 (min dt 65535)) 4095

/-- A rate sample is taken now (R105, R106). -/
def State.sampleRate (s : State) : State :=
  s.onRg fun r =>
    match r.sampleTime with
    | some t => { r with f := (7 * r.f + rateSample (s.ms - t)) / 8, sampleTime := some s.ms }
    | none => { r with sampleTime := some s.ms }

/-- The base target: the lowest level whose drain rate meets the need (R107, step 2). -/
def baseTarget (need : Nat) : Nat :=
  if need ≤ Config.drainRate 0 then 0 else if need ≤ Config.drainRate 1 then 1
  else if need ≤ Config.drainRate 2 then 2 else if need ≤ Config.drainRate 3 then 3
  else if need ≤ Config.drainRate 4 then 4 else 5

/-- The target of R107 from F, the direction, the counts N, S and FREE, and the cap; corrected in integers, then clamped. -/
def targetLevel (f : Nat) (d : Direction) (n s free cap : Nat) : Nat :=
  let base : Int := baseTarget (9 * f / 8)
  let corrected : Int :=
    match d with
    | .writeOpen => if 3 * n / 4 ≤ s then base + 1 else if s ≤ n / 8 then base - 1 else base
    | .readOpen => if free ≤ n / 8 then base - 1 else if 3 * n / 4 ≤ free then base + 1 else base
    | _ => base
  min (max corrected 0).toNat cap

/-- The hysteresis of two evaluations (R108). -/
def Rg.follow (r : Rg) (target : Nat) : Rg :=
  if target = r.level then { r with target := none }
  else if r.target = some target then { r with level := target, target := none }
  else { r with target := some target }

/-- The short-run penalty at a start after UNDERRUN or BACKPRESSURE (R113), and the new run (R110). -/
def Rg.startRun (r : Rg) : Rg :=
  let short : Bool := match r.runLength with | some k => decide (k < 32) | none => false
  let p := if r.stopKind ≠ .none ∧ short = true ∧ 0 < r.level then { r with level := r.level - 1, target := none } else r
  { p with stopKind := .none, runLength := some 0, readStart := .threshold, flushed := false, held := none, newRun := false }

/-- The level at which the position that comes up is taken (R103). -/
def Rg.due (r : Rg) : Nat := r.held.getD r.level

/-- A stripe start raises the run length, held at 65,535 (R104, R110). -/
def Rg.stripeStart (r : Rg) : Rg := { r with runLength := some (min 65535 ((r.runLength.getD 0) + 1)) }

/-- What the governor keeps when the direction leaves WRITE_OPEN or READ_OPEN (R104). -/
def Rg.leave (r : Rg) : Rg :=
  { r with target := none, runLength := none, sampleTime := none, stopKind := .none,
           readStart := .threshold, flushed := false, held := none, newRun := false }

/-- A session opens: F is 0 and the sample time is now (R104). -/
def State.openRate (s : State) : State := s.onRg fun r => { r with f := 0, sampleTime := some s.ms }

end Sys2Proof.Machine
end

