-- ==== Sys2Proof/Machine/Directory.lean ====
section
/-! DEFINITION. The RAM directory (chapter 8): growing it by a verified or recovered stripe (R76, R77, R143, R144), cutting
it back (R142), emptying it (R145), and where it sends a locate or a write point (R64, R126, R127). -/

namespace Sys2Proof.Machine

/-- A stripe as it is handed to the directory (R76). -/
structure StripeDone where
  stripe : Nat
  pos : TapePos
  first : Nat
  flags : List Byte
  deriving DecidableEq, Repr

/-- Adds a mark to a list of marks, once. -/
def markOnce (l : List Nat) (x : Nat) : List Nat := if l.contains x then l else l ++ [x]

/-- A pass entry (R137); `none` is empty. -/
def Directory.entry (d : Directory) (p : Nat) : Option PassEntry := (d.passes.getD p none)

/-- Sets a pass entry. -/
def Directory.setEntry (d : Directory) (p : Nat) (e : Option PassEntry) : Directory :=
  { d with passes := d.passes.set p e }

/-- The pass entry after a stripe at this place has been applied (R76, R77, R143). The end mark that an empty entry held counts as
the starting end of its pass (DESIGN CHOICE, log entry 98). -/
def growEntry (e : Option PassEntry) (x : StripeDone) : PassEntry :=
  let stop := x.pos.onward Config.positionMarks
  let base : PassEntry :=
    match e with
    | some b => b
    | none =>
      { first := x.stripe, last := x.stripe, firstRecord := x.first, endMark := passStart x.pos.pass,
        waypoints := List.replicate 16 none }
  let held : TapePos := { pass := x.pos.pass, mark := base.endMark }
  let k := x.pos.segment
  { base with
    last := max base.last x.stripe
    endMark := if stop.furtherThan held then stop.mark else base.endMark
    waypoints :=
      if (base.waypoints.getD k none).isSome then base.waypoints
      else base.waypoints.set k (some { stripe := x.stripe, first := x.first, mark := x.pos.mark }) }

/-- Appends a filemark pair, or clears the complete flag at 512 (R77, R144). -/
def Directory.addFilemark (d : Directory) (pair : Nat × Nat) : Directory :=
  if d.index.length < Config.maxFilemarks then { d with index := d.index ++ [pair] } else { d with complete := false }

/-- The records of a stripe's filemark entries, in entry order (R77). -/
def filemarkRecords (first : Nat) (flags : List Byte) : List Nat :=
  ((List.range flags.length).filter fun i => flagFilemark (flags.getD i 0)).map (first + ·)

/-- The number of entries with last piece set (R76). -/
def lastPieces (flags : List Byte) : Nat := flags.countP flagLast

/-- Applies a stripe to the directory (R76, R77). -/
def Directory.apply (d : Directory) (x : StripeDone) : Directory :=
  let d1 :=
    { d with eodStripe := x.stripe + 1, eodRecord := d.eodRecord + lastPieces x.flags }
  let d2 := d1.setEntry x.pos.pass (some (growEntry (d.entry x.pos.pass) x))
  ((filemarkRecords x.first x.flags).map fun r => (r, x.stripe)).foldl Directory.addFilemark d2

/-- Index pages that receive the pairs from position `old` up to `new` (R143). -/
def grownPages (old new : Nat) : List Nat := (List.range 64).filter fun k => 8 * k < new ∧ old < 8 * k + 8 ∧ old < new

/-- The link applies a stripe, with its dirty marks (R143). -/
def State.applyStripe (s : State) (x : StripeDone) : State :=
  s.onCml fun c =>
    match c.directory with
    | none => c
    | some d =>
      let d' := d.apply x
      { c with
        directory := some d'
        dirty := { c.dirty with
          header := true
          passes := markOnce c.dirty.passes x.pos.pass
          index := (grownPages d.index.length d'.index.length).foldl markOnce c.dirty.index } }

/-- Cuts a pass entry back to stripe `s` and the write point (R142, step 3). -/
def cutEntry (s : Nat) (w : TapePos) : Option PassEntry → Option PassEntry
  | none => none
  | some e =>
    if s ≤ e.first then none
    else some
      { e with
        last := if s ≤ e.last then s - 1 else e.last
        endMark := w.mark
        waypoints := e.waypoints.map fun p => p.bind fun q => if s ≤ q.stripe then none else some q }

/-- The directory cut back to boundary stripe `s`, record `r` and a write point, its generation raised (R64, R142). -/
def Directory.truncate (d : Directory) (s r : Nat) (w : TapePos) : Directory :=
  let index := d.index.filter fun p => p.1 < r
  { d with
    generation := d.generation + 1, eodStripe := s, eodRecord := r
    complete := if index.length < d.index.length then true else d.complete
    passes := (List.range d.passes.length).map fun p =>
      if p < w.pass then d.entry p else if p = w.pass then cutEntry s w (d.entry p) else none
    index := index }

/-- The passes whose entries a truncation changed (R142). -/
def changedPasses (d d' : Directory) : List Nat :=
  (List.range d.passes.length).filter fun p => d.entry p ≠ d'.entry p

/-- The link cuts the directory back when a session opens, with its dirty marks (R64, R142): the header, the index as a whole
and the pass entries that changed. The index pages marked (R138) stay as they are, since a removal changes none (R142, step 4;
log entry 55). -/
def State.truncateDirectory (s : State) (stripe record : Nat) (w : TapePos) : State :=
  s.onCml fun c =>
    match c.directory with
    | none => c
    | some d =>
      let d' := d.truncate stripe record w
      { c with
        directory := some d'
        dirty :=
          { c.dirty with
            header := true
            wholeIndex := true
            passes := (changedPasses d d').foldl markOnce c.dirty.passes } }

/-- The last pass with stripes (R137). -/
def Directory.lastPass (d : Directory) : Option Nat :=
  ((List.range d.passes.length).filter fun p => (d.entry p).isSome).getLast?

/-- The tape position of the directory's end of data (R64, step 3). -/
def Directory.endPos (d : Directory) : TapePos :=
  match d.lastPass with
  | some p => { pass := p, mark := ((d.entry p).map (·.endMark)).getD (passStart p) }
  | none => { pass := 0, mark := 0 }

/-- The data-set position at the directory's end of data, a boundary (R81, R95, R129). -/
def Directory.endDs (d : Directory) : DsPos :=
  { stripe := d.eodStripe, record := d.eodRecord, boundary := true, carried := d.endPos, below := false }

/-- The highest pass whose entry satisfies a test (R126, R127). -/
def Directory.passWhere (d : Directory) (ok : PassEntry → Bool) : Option (Nat × PassEntry) :=
  ((List.range d.passes.length).filterMap fun p => (d.entry p).bind fun e => if ok e then some (p, e) else none).getLast?

/-- Where a locate starts in a pass: 12 marks before the last waypoint that satisfies a test, else the pass's start
(R126, R127). -/
def startInPass (p : Nat) (e : PassEntry) (ok : Waypoint → Bool) : TapePos :=
  match (e.waypoints.filterMap id).filter ok with
  | [] => { pass := p, mark := passStart p }
  | w :: ws =>
    let best := ws.foldl (fun b x => if b.stripe < x.stripe then x else b) w
    ({ pass := p, mark := best.mark } : TapePos).before 12

/-- The start of a locate by stripe (R126, steps 2 and 3). -/
def Directory.stripeStart (d : Directory) (t : Nat) : TapePos :=
  match d.passWhere fun e => decide (e.first ≤ t) with
  | some (p, e) => startInPass p e fun w => decide (w.stripe ≤ t)
  | none => { pass := 0, mark := 0 }

/-- The start of a locate by record (R127, step 2). -/
def Directory.recordStart (d : Directory) (r : Nat) : TapePos :=
  if r = 0 then { pass := 0, mark := 0 }
  else
    match d.passWhere fun e => decide (e.firstRecord < r) with
    | some (p, e) => startInPass p e fun w => decide (w.first < r)
    | none => { pass := 0, mark := 0 }

/-- The valid RAM directory, if there is one (R138). -/
def State.validDirectory (s : State) : Option Directory :=
  if s.cml.condition = .valid then s.cml.directory else none

/-- The stale recovery's rebuild: everything emptied, the generation left (R145). -/
def Directory.emptied (d : Directory) : Directory :=
  { d with eodStripe := 0, eodRecord := 0, complete := true, passes := d.passes.map fun _ => none, index := [] }

/-- The link empties the directory for a rebuild, with its dirty marks (R145). -/
def State.rebuildDirectory (s : State) : State :=
  s.onCml fun c =>
    match c.directory with
    | none => c
    | some d =>
      { c with
        directory := some d.emptied
        dirty := { c.dirty with header := true, passes := (changedPasses d d.emptied).foldl markOnce c.dirty.passes } }

/-- The stale recovery's success (R145). -/
def State.recoverDirectory (s : State) (highest : Nat) : State :=
  s.onCml fun c =>
    { c with
      condition := .valid
      directory := c.directory.map fun d => { d with generation := max d.generation highest }
      dirty := { c.dirty with header := true } }

/-- The directory's end of data as (stripe, record); zero without a directory. -/
def State.endOfData (s : State) : Nat × Nat :=
  match s.cml.directory with
  | some d => (d.eodStripe, d.eodRecord)
  | none => (0, 0)

/-- The data-set position becomes the directory's end of data, a boundary (R33, R81). -/
def State.positionAtEnd (s : State) : State :=
  match s.cml.directory with
  | some d => s.onMc fun m => { m with dsPos := some d.endDs }
  | none => s

end Sys2Proof.Machine
end

