-- ==== Sys2Proof/Machine/Operands.lean ====
section
/-! DEFINITION. The operand forms: a command slot's post word and arguments (R182), the group of a command (R184), a sensor
plan's checks (R155), the bytes of an access. -/

namespace Sys2Proof.Machine

/-- The bytes of an access's width (R171). -/
def widthBytes : Width → Nat
  | .w1 => 1 | .w2 => 2 | .w4 => 4 | .w8 => 8

/-- The bytes a write carries, lowest address first (R171). -/
def Access.bytes (a : Access) : List Byte := toLe (widthBytes a.width) a.value.toNat

/-- The block of eight bytes an access lies in (R171). -/
def Access.block (a : Access) : Nat := a.addr / 8 * 8

/-- Arguments of SENSOR_PLAN (chapter 9, Formats). -/
def planArgsOf (args : List Byte) : PlanArgs :=
  { lengthA := args.getD 0 0, lengthB := args.getD 1 0, listA := (args.drop 2).take 8, listB := (args.drop 10).take 8,
    scanMask := BitVec.ofNat 16 (fieldAt args 18 2), flags := args.getD 20 0, period := args.getD 21 0,
    batch := args.getD 22 0, formatMask := BitVec.ofNat 16 (fieldAt args 24 2) }

/-- The command a code and its arguments spell (R182 and each command's own rule). -/
def decodeCmd (code : Nat) (args : List Byte) : HostCmd :=
  match code with
  | 1 => .setPool (fieldAt args 0 2)
  | 2 => .setCompression (fieldAt args 0 1)
  | 3 => .setSealInterval (fieldAt args 0 2)
  | 4 => .sensorPlan (planArgsOf args)
  | 5 => .setHealth (fieldAt args 0 2)
  | 6 => .queryHealth
  | 7 => .loopback (fieldAt args 0 2)
  | 16 => .load
  | 17 => .unload
  | 18 => .rewind
  | 19 => .locate (fieldAt args 0 1) (fieldAt args 4 4)
  | 20 => .locateEod
  | 21 => .space (fieldAt args 0 1) (BitVec.ofNat 32 (fieldAt args 4 4)).toInt
  | 32 => .openWrite
  | 33 => .streamRecord (fieldAt args 0 1) ((List.range 6).map fun k => fieldAt args (4 + 4 * k) 4)
  | 34 => .writeMark (fieldAt args 0 1) (fieldAt args 1 1)
  | 35 => .flush
  | 36 => .openRead
  | 37 => .deliverRecord (fieldAt args 0 4)
  | 48 => .close
  | 49 => .abort
  | c => .unknown c

/-- The group of a command (R184). A code that names no command is dispatched as a configuration command (log entry 14). -/
def HostCmd.group : HostCmd → Queue
  | .load | .unload | .rewind | .locate _ _ | .locateEod | .space _ _ => .motion
  | .openWrite | .streamRecord _ _ | .writeMark _ _ | .flush | .openRead | .deliverRecord _ => .data
  | _ => .configuration

/-- The kind of a motion command. -/
def HostCmd.motionKind : HostCmd → Option MotionKind
  | .load => some .load
  | .unload => some .unload
  | .rewind => some .rewind
  | .locate _ _ => some .locate
  | .locateEod => some .locateEod
  | .space _ _ => some .space
  | _ => none

/-- STREAM_RECORD and WRITE_MARK, which go to the intake order (R38, R39). -/
def HostCmd.announces : HostCmd → Bool
  | .streamRecord _ _ | .writeMark _ _ => true
  | _ => false

/-- A flags byte sets a bit other than barrier (R182). -/
def flagsMalformed (flags : BitVec 8) : Bool := decide (2 ≤ flags.toNat)

/-- A post word sets a bit the layout gives as zero (R182). -/
def postMalformed (w : List Byte) : Bool :=
  flagsMalformed (w.getD 1 0) || ((w.drop 4).take 3).any (· != 0) || decide (2 ≤ (w.getD 7 0).toNat)

/-- The barrier flag (R182). -/
def Taken.barrier (t : Taken) : Bool := bitOf t.flags 0 && t.cmd != .abort

/-- The used entries of a list. -/
def usedEntries (n : BitVec 8) (l : List Byte) : List Nat := (l.take n.toNat).map (·.toNat)

/-- The inputs a mask names. -/
def maskInputs (m : BitVec 16) : List Nat := (List.range 12).filter fun i => m.getLsbD i

/-- The list length is 1 to 8 and every used entry is an input. -/
def listOk (n : BitVec 8) (used : List Nat) : Bool :=
  decide (1 ≤ n.toNat) && decide (n.toNat ≤ 8) && used.all fun i => decide (i ≤ 11)

/-- The checks of R155 in their order; `none` where one fails. -/
def planOf (threaded : Bool) (p : PlanArgs) : Option Plan :=
  let a := usedEntries p.lengthA p.listA
  let b := usedEntries p.lengthB p.listB
  let alternate := bitOf p.flags 0
  if !listOk p.lengthA a then none
  else if alternate && !listOk p.lengthB b then none
  else if decide (4096 ≤ p.scanMask.toNat) || (p.scanMask != 0 && decide (a.length < 3)) then none
  else if p.period = 0 ∨ 100 < p.period.toNat ∨ p.batch = 0 ∨ 8 < p.batch.toNat then none
  else if alternate && p.batch.toNat % 2 == 1 then none
  else if 4096 ≤ p.formatMask.toNat ∨ 2 ≤ p.flags.toNat then none
  else if threaded && a.take 2 != [2, 3] then none
  else some
    { listA := a, listB := if alternate then b else [], scan := maskInputs p.scanMask, alternate := alternate,
      period := p.period.toNat, batch := p.batch.toNat, signed := maskInputs p.formatMask }

end Sys2Proof.Machine
end

