-- ==== Sys2Proof/Machine/Pool.lean ====
section
/-! DEFINITION. The Stripe Pool Manager (chapter 2): slot requests, sealing (R22), the write queue (R25), freeing verified
stripes (R28), changes of direction (R19, R20) and clearing (R35). -/

namespace Sys2Proof.Machine

/-! ### Slots -/

/-- The write-side states (R17). -/
def SlotState.writeSide : SlotState → Bool
  | .filling | .sealed | .writing | .awaitVerify | .verified => true
  | _ => false

/-- The read-side states (R17). -/
def SlotState.readSide : SlotState → Bool
  | .reading | .readDone | .readFailed | .delivering => true
  | _ => false

/-- An emptied slot record (R16). -/
def Slot.empty : Slot :=
  { state := .free, stripe := none, dataBytes := 0, entries := 0, firstRecord := none, copy := none, pos := none }

/-- The number of slots in a state (R18). -/
def Spm.count (m : Spm) (g : SlotState) : Nat := m.slots.countP (·.state == g)

/-- The number of slots, N (R16). -/
def Spm.n (m : Spm) : Nat := m.slots.length

/-- The lowest-indexed slot in a state (R18). -/
def Spm.firstIn (m : Spm) (g : SlotState) : Option Nat := m.slots.findIdx? (·.state == g)

/-- Every write-side slot is FREE (R35, R78). -/
def Spm.writeEmpty (m : Spm) : Bool := m.slots.all fun x => !x.state.writeSide

/-- Every slot is FREE (R33). -/
def Spm.allFree (m : Spm) : Bool := m.slots.all fun x => x.state == .free

/-- The start threshold R = max(2, N div 8) (R111, R112). -/
def Spm.threshold (m : Spm) : Nat := max 2 (m.n / 8)

/-- Indexed slots whose stripe satisfies a test, as (stripe, index). -/
def Spm.numbered (m : Spm) (ok : Slot → Bool) : List (Nat × Nat) :=
  (List.range m.slots.length).filterMap fun i =>
    match m.slots[i]? with
    | some x => if ok x then x.stripe.map fun t => (t, i) else none
    | none => none

/-- The entry with the lowest stripe number. -/
def lowestOf : List (Nat × Nat) → Option (Nat × Nat)
  | [] => none
  | x :: xs =>
    match lowestOf xs with
    | some y => if y.1 < x.1 then some y else some x
    | none => some x

/-- The entry with the highest stripe number. -/
def highestOf : List (Nat × Nat) → Option (Nat × Nat)
  | [] => none
  | x :: xs =>
    match highestOf xs with
    | some y => if x.1 < y.1 then some y else some x
    | none => some x

/-- The head of the write queue (R25): the index of the SEALED slot with the lowest number. -/
def Spm.head (m : Spm) : Option Nat := (lowestOf (m.numbered (·.state == .sealed))).map (·.2)

/-- The bottom of the read-ahead order (R30): stripe and index. -/
def Spm.bottom (m : Spm) : Option (Nat × Nat) :=
  lowestOf (m.numbered fun x => x.state == .readDone || x.state == .readFailed)

/-- Changes one slot record. -/
def Spm.update (m : Spm) (i : Nat) (f : Slot → Slot) : Spm := { m with slots := m.slots.modify i f }

/-- Changes one slot record of the pool. -/
def State.setSlot (s : State) (i : Nat) (f : Slot → Slot) : State := s.onSpm fun m => m.update i f

/-- The table admits a slot into a state (R17, R18): of some states there is at most one slot, and a FREE slot goes only to
the side that the direction names. -/
def Spm.admits (m : Spm) (g : SlotState) : Bool :=
  match g with
  | .filling => m.direction == .writeOpen && (m.firstIn g).isNone
  | .reading => m.direction == .readOpen && (m.firstIn g).isNone
  | .readFailed => m.direction == .readOpen
  | .writing | .awaitVerify | .delivering => (m.firstIn g).isNone
  | _ => true

/-- The lowest-indexed FREE slot but for one that is kept FREE (R18, R34). -/
def Spm.lowestFree (m : Spm) (kept : Option Nat) : Option Nat :=
  m.slots.zipIdx.findIdx? fun x => x.1.state == .free && kept != some x.2

/-- The lowest-indexed FREE slot that a request can get (R18): the slot a LOOPBACK sends stays FREE throughout (R34, R170), so that
a request passes it over (DESIGN CHOICE, log entry 117). -/
def State.lowestFree (s : State) : Option Nat := s.spm.lowestFree (s.tte.loopback.map (·.slot))

/-- The FREE slot that a request for a slot to go into a state gets, if the table admits it (R18). -/
def State.freeFor (s : State) (g : SlotState) : Option Nat := if s.spm.admits g then s.lowestFree else none

/-- The record of slot `i` goes from one state to another, changed by `f`, if the request fits the table (R17, R18). -/
def State.moveSlot (s : State) (i : Nat) (old new : SlotState) (f : Slot → Slot) : State :=
  if (s.spm.slots[i]?).any (·.state == old) && s.spm.admits new then s.setSlot i fun x => { f x with state := new } else s

/-- A slot returns to FREE and its record is emptied (R16). -/
def State.freeSlot (s : State) (i : Nat) : State := s.setSlot i fun _ => Slot.empty

/-- Every slot in a given set of states returns to FREE. -/
def State.freeAll (s : State) (ok : Slot → Bool) : State :=
  s.onSpm fun m => { m with slots := m.slots.map fun x => if ok x then Slot.empty else x }

/-- The first byte of a slot (R16). -/
def State.slotBase (s : State) (i : Nat) : Nat :=
  (((s.region .pool).map (·.base)).getD 0) + i * Config.stripeSize

/-- The record of a slot, empty where there is none. -/
def State.slotAt (s : State) (i : Nat) : Slot := (s.spm.slots[i]?).getD Slot.empty

/-- An entry of a slot's directory, as it lies in DRAM (R6, R9). -/
def State.entryBytes (s : State) (i e : Nat) : List Byte := Memory.readBytes s.dram (s.slotBase i + entryOffset e) 16

/-- The flags bytes of a slot's entries in entry order (R28). -/
def State.entryFlags (s : State) (i : Nat) : List Byte :=
  (List.range (s.slotAt i).entries).map fun e => Memory.read s.dram (s.slotBase i + entryOffset e + 8)

/-! ### The filling stripe and sealing (R21 to R24) -/

/-- The seal timer starts with the full interval (R24). -/
def Spm.restart (m : Spm) : Spm :=
  { m with sealTimer := if m.sealInterval = 0 then none else some (m.sealInterval * Config.ticksPerSecond) }

/-- The raw length of the record or filemark being placed; 0 for a filemark (R37). -/
def Pe.raw (p : Pe) : Nat :=
  match p.intake.head? with
  | some c => c.lengths.getD c.placed 0
  | none => 0

/-- The item being placed is a filemark. -/
def Pe.onMark (p : Pe) : Bool :=
  match p.intake.head? with
  | some c => c.mark
  | none => false

/-- The record's last coded byte has been placed (R22, R53). -/
def Pe.allPlaced (p : Pe) : Bool := p.output.isEmpty && p.taken == p.raw

/-- The entry of the open piece in slot `i` as it is closed now (R22, R53). -/
def State.openEntry (s : State) (i : Nat) (last : Bool) : List Byte :=
  Entry.bytes
    { index := (s.slotAt i).entries - 1, raw := s.pe.raw, coded := s.pe.pieceCoded, filemark := s.pe.onMark,
      first := s.pe.pieceFirst, last := last, compressed := !s.pe.onMark && s.pe.compressed,
      crc := if last && s.pe.raw != 0 then s.pe.crc.toNat else 0 }

/-- The stripe number and first record number of a new FILLING slot (R21). -/
def State.nextFilling (s : State) : Nat × Nat :=
  let held := s.spm.numbered (·.state.writeSide)
  let stripe := s.endOfData.1 + held.length
  match highestOf held with
  | none => (stripe, s.endOfData.2)
  | some (_, i) =>
    let x := s.slotAt i
    let open_ := !flagLast (Memory.read s.dram (s.slotBase i + entryOffset (x.entries - 1) + 8))
    (stripe, x.firstRecord.getD 0 + x.entries - (if open_ then 1 else 0))

/-- The FILLING slot, if no sealing writes are under way for it. -/
def State.filling (s : State) : Option Nat :=
  if s.spm.sealing.isSome then none else s.spm.firstIn .filling

/-- A bare last entry is withdrawn (R22, case 1). -/
def State.withdrawBare (s : State) (i : Nat) : State :=
  if s.pe.entryOpen && s.pe.raw != 0 && s.pe.pieceCoded == 0 then
    (s.setSlot i fun x => { x with entries := x.entries - 1 }).onPe fun p => { p with entryOpen := false, emit := .begin_ }
  else s

/-- The writes of a seal: the final entry of an open piece, then the header (R22, case 3). -/
def State.sealWrites (s : State) (i : Nat) : List (Nat × List Byte) :=
  let x := s.slotAt i
  let generation := (s.cml.directory.map (·.generation)).getD 0
  (if s.pe.entryOpen then
      [(s.slotBase i + entryOffset (x.entries - 1), s.openEntry i (s.pe.emit == .entry))] else [])
    ++ [(s.slotBase i, Header.sealed (x.stripe.getD 0) generation x.entries (x.firstRecord.getD 0) x.dataBytes)]

/-- A seal trigger (R22, R23): nothing without a FILLING slot; a bare entry withdrawn; no entry left, FREE; else the open
piece is closed and the sealing writes are asked, the seal timer running until the slot leaves FILLING (R24). An item whose last
entry they place is done with that write (R40; log entry 40). -/
def State.triggerSeal (s : State) : State :=
  match s.filling with
  | none => s
  | some i =>
    let s1 := s.withdrawBare i
    if (s1.slotAt i).entries = 0 then (s1.freeSlot i).onSpm fun m => { m with sealTimer := none }
    else
      let s2 := s1.onSpm fun m => { m with sealing := some { slot := i, writes := s1.sealWrites i } }
      s2.onPe fun p =>
        { p with entryOpen := false, emit := if p.entryOpen && p.emit == .entry then .entry else .begin_ }

/-- The sealing write of an open piece's entry has not been made yet (R22, R40). -/
def Spm.entryWaits (m : Spm) : Bool := (m.sealing.map fun j => decide (2 ≤ j.writes.length)).getD false

/-- The sealing writes are done: the slot is SEALED with copy number 0, the seal timer stops, and the slot gives a rate sample
(R13, R22, R24, R105). -/
def State.sealDone (s : State) (i : Nat) : State :=
  let s1 := ((s.setSlot i fun x => { x with copy := some 0 }).moveSlot i .filling .sealed id).onSpm fun m =>
    { m with sealing := none, sealTimer := none }
  if s.spm.direction = .writeOpen then s1.sampleRate else s1

/-! ### Completing the intake order (R40) -/

/-- The details of a STREAM_RECORD or WRITE_MARK (R40). -/
def IntakeCmd.detailA (c : IntakeCmd) : Detail :=
  if c.mark then dv 4 c.first ++ dv 1 c.lengths.length ++ du 3
  else dv 4 c.first ++ dv 1 c.lengths.length ++ dv 2 c.refusals ++ du 1

/-- The total raw and coded bytes of a STREAM_RECORD (R40). What the coded total of one that ends before all its records are
coded holds, the spec does not say: the coded bytes placed so far (DESIGN CHOICE, log entry 66). -/
def IntakeCmd.detailB (c : IntakeCmd) : Detail :=
  if c.mark then noDetail else dv 4 c.lengths.sum ++ dv 4 c.coded

/-- The details of a FLUSH, and of a WRITE_MARK with sync (R78). -/
def State.flushDetails (s : State) : Detail × Detail :=
  (dv 4 s.endOfData.1 ++ du 4, dv 4 s.endOfData.2 ++ du 4)

/-- OK, or OK_EARLY_WARNING (R79). -/
def okOr (early : Bool) : Result := if early then .okEarlyWarning else .ok

/-- The failure cause's result (R75). -/
def Cause.result : Cause → Result
  | .verify => .writeFailed
  | .mediaEnd => .endOfMedia

/-- The result data commands get in WRITE_FAILED (R75). -/
def State.causeResult (s : State) : Result := ((s.tte.cause.map Cause.result).getD .writeFailed)

/-- The details a command of the intake order completes with: a WRITE_MARK with sync that waits as FLUSH does carries
FLUSH's (R78), any other its own (R40; log entry 54). -/
def State.intakeDetails (s : State) (c : IntakeCmd) : Detail × Detail :=
  if c.synced then s.flushDetails else (c.detailA, c.detailB)

/-- Completes commands of the intake order with one result, in order (R56, R57). -/
def State.completeIntake (s : State) (cs : List IntakeCmd) (r : Result) : State :=
  cs.foldl (fun t c => t.complete c.id r (t.intakeDetails c).1 (t.intakeDetails c).2) s

/-- The Pack Engine empties lists, FIFO and coder; the cursor, the next record number and the setting stay (R56). -/
def Pe.discard (p : Pe) (keep : List IntakeCmd) : Pe :=
  { Pe.reset p.compression with intake := keep, nextRecord := p.nextRecord, cursor := p.cursor }

/-- The Pack Engine discards its work, completing what it holds (R56). A WRITE_MARK with sync that already waits as FLUSH does ends
here with the rest, at the dispatch of the ABORT and with the end of data of that moment, and does not wait for the last write-side
slot as a FLUSH does (R78; DESIGN CHOICE, log entry 108). -/
def State.abortPack (s : State) : State :=
  (s.onPe fun p => p.discard []).completeIntake s.pe.intake .aborted

/-! ### Direction (R19, R20) -/

/-- The FILLING slot is SEALED from here on, its sealing writes still waiting for the port, and the seal timer stops (R17, R24;
log entry 51). -/
def Spm.closeFilling (m : Spm) : Spm :=
  { m with slots := m.slots.map fun x => if x.state == .filling then { x with state := .sealed } else x
           sealTimer := none }

/-- The direction enters WRITE_FAILED (R20, R57): the FILLING slot is sealed, the Pack Engine emptied; a WRITE_MARK with
sync that already waits stays (R75). A FILLING slot exists only in WRITE_OPEN (R17), so the slot counts as SEALED at once,
its sealing writes following as the port grants them: DESIGN CHOICE, log entry 51. -/
def State.enterWriteFailed (s : State) (cause : Cause) : State :=
  let s1 := s.triggerSeal
  let s2 := if s1.spm.sealing.isSome then s1.sampleRate else s1
  let s3 := (s2.onSpm fun m => { m.closeFilling with direction := .writeFailed }).onTte fun t =>
    { t with cause := some cause }
  let s4 := s3.onRg Rg.leave
  let keep := s4.pe.intake.filter (·.synced)
  (s4.onPe fun p => p.discard keep).completeIntake (s4.pe.intake.filter (!·.synced)) cause.result

/-- The direction leaves the write side for NONE: the position becomes the directory's end of data (R33, R81). A request
of the Pack Engine for a FILLING slot can no longer be taken and is dropped (R20); the spec says nothing of the coder, which
stays in AWAIT_SLOT with its intake order until a session opens or an ABORT discards it: DESIGN CHOICE, log entry 52. -/
def State.leaveWrite (s : State) : State :=
  let s1 := s.onSpm fun m => { m with direction := .none, clearing := false, dropFrom := none, sealing := none,
                                      sealTimer := none }
  let s2 := s1.onTte fun t => { t with writePoint := none, cause := none }
  (s2.onRg Rg.leave).positionAtEnd

/-! ### Freeing verified stripes (R28) and clearing (R35) -/

/-- Frees the bottom stripe into the directory while it is VERIFIED (R28). -/
def State.freeVerified : Nat → State → State
  | 0, s => s
  | n + 1, s =>
    match lowestOf (s.spm.numbered (·.state.writeSide)) with
    | none => s
    | some (t, i) =>
      let x := s.slotAt i
      if x.state = .verified then
        let done : StripeDone :=
          { stripe := t, pos := x.pos.getD { pass := 0, mark := 0 }, first := x.firstRecord.getD 0,
            flags := s.entryFlags i }
        State.freeVerified n ((s.applyStripe done).freeSlot i)
      else s

/-- The lower of two numbers, either of which may be absent. -/
def minOpt : Option Nat → Option Nat → Option Nat
  | some a, some b => some (min a b)
  | some a, none => some a
  | none, b => b

/-- Under a clearing ABORT: VERIFIED stripes above the lowest one not kept become FREE without report (R35). -/
def State.sweepDropped (s : State) : State :=
  match s.spm.clearing, s.spm.dropFrom with
  | true, some d => s.freeAll fun x => x.state == .verified && decide (d < x.stripe.getD 0)
  | _, _ => s

/-- VERIFIED stripes that must not be kept are swept, then those that remain are freed in order (R28, R35). -/
def State.freeRun (s : State) : State := State.freeVerified s.spm.n s.sweepDropped

/-- Begins to clear the write side (R35): FILLING and SEALED slots become FREE at once. -/
def State.clearWrite (s : State) : State :=
  let gone := lowestOf (s.spm.numbered fun x => x.state == .filling || x.state == .sealed)
  let s1 := s.onSpm fun m =>
    { m with clearing := true, dropFrom := minOpt m.dropFrom (gone.map (·.1)), sealing := none, sealTimer := none }
  (s1.freeAll fun x => x.state == .filling || x.state == .sealed).freeRun

end Sys2Proof.Machine
end

