-- ==== Sys2Proof/Machine/Move.lean ====
section
/-! DEFINITION. The Motion Controller's tape movements (chapters 6 and 7): match targets, streaming starts, repositions,
turnarounds, shuttles, stops, and the governor's evaluation at a stripe start (R107, R108). -/

namespace Sys2Proof.Machine

/-- The targets loaded at a pass change (R121). -/
def passTargets (pass : Nat) : List Target :=
  { mark := passEnd pass, purpose := .passEnd }
    :: (if pass = Config.lastPass then [{ mark := 1200, purpose := .earlyWarning }] else [])

/-- Drops the target of a purpose. -/
def Mc.dropTarget (m : Mc) (p : Purpose) : Mc := { m with targets := m.targets.filter (·.purpose != p) }

/-- The targets of a move and of streaming are dropped; those of the pass stay until the next pass change (R121). -/
def Mc.dropMoves (m : Mc) : Mc := { m with targets := m.targets.filter fun t => t.purpose == .passEnd || t.purpose == .earlyWarning }

/-- Loads a target; one of each purpose stands at a time (R121). -/
def Mc.load (m : Mc) (mark : Nat) (p : Purpose) : Mc :=
  let d := m.dropTarget p
  { d with targets := d.targets ++ [{ mark := mark, purpose := p }] }

/-- Loads the start mark of a stripe position, if a stripe can be started there (R3, R121). -/
def Mc.loadStart (m : Mc) (p : TapePos) : Mc := if p.startable then m.load p.mark .startMark else m.dropTarget .startMark

/-- The mark target of a purpose. -/
def Mc.target (m : Mc) (p : Purpose) : Option Nat := (m.targets.find? (·.purpose == p)).map (·.mark)

/-- The tape is brought up so that the head meets `p` at speed (R65, R85). A tape at or past `p` comes from one mark before
it; at the end of the usable tape it comes from off it (log entry 20). -/
def Mc.stream (m : Mc) (p : TapePos) (speed : Nat) : Mc :=
  let from_ :=
    match m.pos with
    | some q => if q.pass = p.pass ∧ q.offset < p.offset then q else p.before 1
    | none => p.before 1
  ({ m with
    state := .streaming, travel := passTravel p.pass, pos := some from_, runIn := p.offset == 0, slowing := false,
    resume := false, speed := speed, atSpeed := false, lastMark := none, decel := none,
    targets := passTargets p.pass }).loadStart p

/-- A reposition begins (R110, R112, R122): the tape decelerates over `marks` marks, then runs back (log entry 27). -/
def Mc.reposition (m : Mc) (marks : Nat) : Mc :=
  { m.dropTarget .startMark with
    state := .repositioning, slowing := false, atSpeed := false, lastMark := none, runIn := false, decel := some marks }

/-- A mark of a reposition is captured: one more of the deceleration, or the tape runs back (R110; log entry 27). -/
def Mc.runBack (m : Mc) : Mc :=
  match m.state, m.decel with
  | .repositioning, some (n + 1) => { m with decel := some n }
  | .repositioning, some 0 =>
    { m with decel := none, travel := (m.pos.map fun q => (passTravel q.pass).turned).getD .stopped }
  | _, _ => m

/-- A reposition begins; how many marks its deceleration passes is a free value (log entry 27). -/
def State.reposition (s : State) : State :=
  ({ s with free := s.free + 1 } : State).onMc fun m => m.reposition (Config.stopMarks s.free)

/-- The tape begins to decelerate to a stop. -/
def Mc.decelerate (m : Mc) : Mc := { m with slowing := true, atSpeed := false, runIn := false, decel := none }

/-- The tape stands. -/
def Mc.halt (m : Mc) (state : MotionState) : Mc :=
  { m with state := state, travel := .stopped, slowing := false, resume := false, speed := 0, atSpeed := false,
           runIn := false, lastMark := none, decel := none }

/-- A turnaround begins (R121). -/
def Mc.turn (m : Mc) : Mc :=
  { m with state := .turnaround, targets := [], slowing := false, atSpeed := false, runIn := false, lastMark := none }

/-- The new pass is reached: head stepped, direction reversed, timer reloaded (R2, R121); log entry 20. -/
def Mc.onNewPass (m : Mc) : Mc :=
  match m.pos with
  | some q =>
    let p := q.nextPass
    { m with pos := some p, travel := passTravel p.pass, runIn := true, targets := passTargets p.pass }
  | none => m

/-- A shuttle at 8 m/s to a place (R103, R120, R126); at the place already, the tape only stops. The locate stop target names
the place the tape then stands at (R121), also where a moving tape passes it while it decelerates. -/
def Mc.shuttle (m : Mc) (p : TapePos) : Mc :=
  let here := ((m.pos.map (·.mark)).getD 0)
  let n := { m with
    state := .moving, pos := some { pass := p.pass, mark := here }, speed := Config.shuttleSpeed, atSpeed := false,
    lastMark := none, runIn := false, resume := false, slowing := false, decel := none,
    targets := passTargets p.pass }
  (if here = p.mark then { n with slowing := true }
    else { n with travel := if here < p.mark then .forward else .reverse }).load p.mark .locateStop

/-- Reads headers at level 0 from where the tape stands (R125). -/
def Mc.readHeaders (m : Mc) (p : TapePos) : Mc :=
  { m with
    state := .moving, pos := some p, travel := passTravel p.pass, speed := Config.levelSpeed 0, atSpeed := false,
    lastMark := none, slowing := false, resume := false, runIn := p.offset == 0, targets := passTargets p.pass }

/-- The governor evaluates its level at a stripe start (R107, R108), and the run length rises (R110). The position it
starts is taken at the level before; a changed level applies from the position after (R103). -/
def State.evaluate (s : State) : State :=
  let t := targetLevel s.rg.f s.spm.direction s.spm.n (s.spm.count .sealed) (s.spm.count .free) s.hm.cap
  s.onRg fun r => { (r.follow t).stripeStart with held := some r.level }

/-- The start condition of R111. -/
def State.startCondition (s : State) (waiting : Bool) : Bool :=
  decide (s.spm.threshold ≤ s.spm.count .sealed)
    || (waiting && (s.spm.firstIn .filling).isNone && decide (1 ≤ s.spm.count .sealed))

/-- The speed at which a position is read: level 0 in a retry, else the level it is taken at (R90, R103). -/
def State.readSpeed (s : State) : Nat :=
  match s.tte.read with
  | some r => Config.levelSpeed (if r.inRetry then 0 else s.rg.due)
  | none => Config.levelSpeed s.rg.due

end Sys2Proof.Machine
end

