-- ==== Sys2Proof/Machine/Coder.lean ====
section
/-! DEFINITION. The coder of chapter 3: chunks, tokens, the matcher with its hash table, and the choice of form (R45 to R51). -/

namespace Sys2Proof.Machine

/-- What the walk of a chunk reads: bytes of the record from position `base` on, and the position of the chunk's end. -/
structure WalkInput where
  bytes : List Byte
  base : Nat
  stop : Nat
  deriving DecidableEq, Repr

/-- The walk of a chunk (R48): position, hash table, literal accumulator, payload so far. -/
structure Walk where
  at_ : Nat
  table : List (Nat × Nat)
  literals : List Byte
  payload : List Byte
  deriving DecidableEq, Repr

/-- The bytes of the record from position `p` on. -/
def WalkInput.tail (c : WalkInput) (p : Nat) : List Byte := c.bytes.drop (p - c.base)

/-- The hash of three bytes (R47). -/
def hash3 (b0 b1 b2 : Byte) : Nat := (121 * b0.toNat + 11 * b1.toNat + b2.toNat) % 1024

/-- A table position's content (R47). -/
def tableGet (t : List (Nat × Nat)) (h : Nat) : Option Nat := (t.find? fun e => e.1 == h).map (·.2)

/-- Sets a table position; entries stay in rising order of position. -/
def tableSet : List (Nat × Nat) → Nat → Nat → List (Nat × Nat)
  | [], h, p => [(h, p)]
  | (k, v) :: rest, h, p =>
    if h < k then (h, p) :: (k, v) :: rest
    else if h = k then (h, p) :: rest
    else (k, v) :: tableSet rest h p

/-- A flush of the literal accumulator (R50). -/
def Walk.flush (w : Walk) : Walk :=
  if w.literals.isEmpty then w
  else { w with
    payload := w.payload ++ BitVec.ofNat 8 (w.literals.length - 1) :: w.literals
    literals := [] }

/-- A byte joins the literal accumulator, flushed first when it holds 64 (R50). -/
def Walk.literal (w : Walk) (b : Byte) : Walk :=
  let v := if 64 ≤ w.literals.length then w.flush else w
  { v with literals := v.literals ++ [b], at_ := v.at_ + 1 }

/-- The token of a repeat run of 3 to 66 bytes (R46). -/
def repeatToken (b : Byte) (n : Nat) : List Byte := [BitVec.ofNat 8 (64 + (n - 3)), b]

/-- The token of a copy of length `n` at offset `d` (R46). -/
def copyToken (n d : Nat) : List Byte :=
  let o := (d - 1) / 256
  let b := BitVec.ofNat 8 ((d - 1) % 256)
  if n ≤ 9 then [BitVec.ofNat 8 (128 + 16 * (n - 3) + o), b]
  else [BitVec.ofNat 8 (128 + 16 * 7 + o), b, BitVec.ofNat 8 (n - 10)]

/-- Bytes at the start of a list equal to `b` (R48, step 2). -/
def runOf (b : Byte) (bs : List Byte) : Nat := (bs.takeWhile (· == b)).length

/-- The lanes of R49 from the first on that find their two bytes equal. -/
def lanesEqual : List Byte → List Byte → Nat
  | a :: as_, b :: bs => if a = b then lanesEqual as_ bs + 1 else 0
  | _, _ => 0

/-- One step of the matcher at its position (R48). -/
def walkStep (c : WalkInput) (w : Walk) : Walk :=
  let p := w.at_
  match (c.tail p).take (c.stop - p) with
  | b0 :: b1 :: b2 :: rest =>
    if b0 = b1 ∧ b1 = b2 then
      let n := runOf b0 ((b0 :: b1 :: b2 :: rest).take 66)
      let v := w.flush
      { v with payload := v.payload ++ repeatToken b0 n, at_ := p + n }
    else
      let h := hash3 b0 b1 b2
      let candidate := tableGet w.table h
      let w' := { w with table := tableSet w.table h p }
      match candidate with
      | some q =>
        if p - q ≤ Config.windowSize ∧ (c.tail q).take 3 = [b0, b1, b2] then
          let n := lanesEqual ((b0 :: b1 :: b2 :: rest).take 265) (c.tail q)
          let v := w'.flush
          { v with payload := v.payload ++ copyToken n (p - q), at_ := p + n }
        else w'.literal b0
      | none => w'.literal b0
  | b0 :: _ => w.literal b0
  | [] => { w with at_ := c.stop }

/-- The walk of a chunk to its end (R48); every step moves on by at least one byte. -/
def walkFrom (c : WalkInput) : Nat → Walk → Walk
  | 0, w => w.flush
  | n + 1, w => if c.stop ≤ w.at_ then w.flush else walkFrom c n (walkStep c w)

/-- What coding a chunk leaves: its header and payload, the hash table, the (empty) literal accumulator. -/
structure CodedChunk where
  output : List Byte
  table : List (Nat × Nat)
  literals : List Byte
  deriving DecidableEq, Repr

/-- A STORED chunk (R45). -/
def storedChunk (chunk : List Byte) : List Byte := toLe 2 (chunk.length + 32768) ++ chunk

/-- A chunk decided by R51. `start` is the record position of its first byte and `history` the window before it. The
table keeps every write of the whole walk, also where the chunk ends STORED (R51; log entry 13). -/
def codeChunk (compress : Bool) (history : List Byte) (start : Nat) (table : List (Nat × Nat)) (chunk : List Byte) :
    CodedChunk :=
  if compress then
    let c : WalkInput := { bytes := history ++ chunk, base := start - history.length, stop := start + chunk.length }
    let w := walkFrom c chunk.length { at_ := start, table := table, literals := [], payload := [] }
    { output := if w.payload.length ≤ chunk.length then toLe 2 w.payload.length ++ w.payload else storedChunk chunk
      table := w.table, literals := w.literals }
  else { output := storedChunk chunk, table := table, literals := [] }

/-- The history window after a chunk: the last 4,096 bytes (R47). -/
def slideWindow (history chunk : List Byte) : List Byte :=
  let all := history ++ chunk
  all.drop (all.length - Config.windowSize)

end Sys2Proof.Machine
end

