-- ==== Sys2Proof/Machine/Pack.lean ====
section
/-! DEFINITION. The Pack Engine (chapter 3): taking records and filemarks, the pack aperture, the coder's states, placement
into the FILLING stripe. -/

namespace Sys2Proof.Machine

/-! ### Open-record lists (R38, R41) -/

/-- A list in which every record has its full length. -/
def OpenList.full (l : OpenList) : Bool := l.records.all fun r => decide (r.raw ≤ r.got)

/-- Closes a full current list; the next list then becomes the current one (R38). -/
def Pe.closeFull (p : Pe) : Pe :=
  match p.current with
  | none => p
  | some c =>
    if c.full then
      match p.next with
      | some d => if d.full then { p with current := none, next := none } else { p with current := some d, next := none }
      | none => { p with current := none }
    else p

/-- The bytes a list has still to receive. -/
def OpenList.remaining (l : OpenList) : Nat := (l.records.map fun r => r.raw - r.got).sum

/-- The remaining length over both lists (R41). -/
def Pe.remaining (p : Pe) : Nat :=
  ((p.current.map OpenList.remaining).getD 0) + ((p.next.map OpenList.remaining).getD 0)

/-- Counts `n` bytes against records in order; what no record takes is left over (R41). -/
def feed : Nat → List OpenRecord → List OpenRecord × Nat
  | n, [] => ([], n)
  | n, r :: rs =>
    let k := min n (r.raw - r.got)
    let rest := feed (n - k) rs
    ({ r with got := r.got + k } :: rest.1, rest.2)

/-- Counts the bytes of a taken write against both lists (R41). -/
def Pe.count (p : Pe) (n : Nat) : Pe :=
  match p.current with
  | none => p
  | some c =>
    let a := feed n c.records
    let p1 := { p with current := some { c with records := a.1 } }
    match p.next with
    | none => p1.closeFull
    | some d => ({ p1 with next := some { d with records := (feed a.2 d.records).1 } }).closeFull

/-- The open-record list of a STREAM_RECORD (R38). -/
def openListOf (id first : Nat) (lengths : List Nat) : OpenList :=
  { cmd := id
    records := (List.range lengths.length).map fun k => { number := first + k, raw := lengths.getD k 0, got := 0 } }

/-- The Pack Engine takes a STREAM_RECORD (R38). -/
def Pe.takeStream (p : Pe) (id : Nat) (lengths : List Nat) (early : Bool) : Pe :=
  let l := openListOf id p.nextRecord lengths
  let c : IntakeCmd :=
    { id := id, mark := false, sync := false, first := p.nextRecord, lengths := lengths, placed := 0, early := early,
      refusals := 0, coded := 0, synced := false }
  let p1 := { p with intake := p.intake ++ [c], nextRecord := p.nextRecord + lengths.length }
  (if p1.current.isNone then { p1 with current := some l } else { p1 with next := some l }).closeFull

/-- The Pack Engine takes a WRITE_MARK (R39). -/
def Pe.takeMark (p : Pe) (id count : Nat) (sync early : Bool) : Pe :=
  let c : IntakeCmd :=
    { id := id, mark := true, sync := sync, first := p.nextRecord, lengths := List.replicate count 0, placed := 0,
      early := early, refusals := 0, coded := 0, synced := false }
  { p with intake := p.intake ++ [c], nextRecord := p.nextRecord + count }

/-! ### The pack aperture (R41, R42) -/

/-- The outcome of examining a pack write (R41, R42). -/
inductive PackExam where
  | taken
  | error
  | sequence
  | hold
  deriving DecidableEq, Repr

/-- Examines a pack write of `w` bytes at an aperture offset (R41, R42). -/
def State.examinePack (s : State) (offset w : Nat) : PackExam :=
  if s.spm.direction = .writeFailed then .error
  else if offset ≠ s.pe.cursor then .sequence
  else if s.pe.remaining = 0 then .hold
  else if s.pe.remaining < w then .error
  else if Config.smallFifo < s.pe.fifo.length + w then .hold
  else .taken

/-- A pack write is taken (R41). -/
def Pe.take (p : Pe) (bytes : List Byte) (aperture : Nat) : Pe :=
  let p1 := { p with fifo := p.fifo ++ bytes,
                     cursor := if aperture ≤ p.cursor + bytes.length then 0 else p.cursor + bytes.length }
  p1.count bytes.length

/-- A sequence refusal is counted against the current list's STREAM_RECORD (R42). -/
def Pe.refuse (p : Pe) : Pe :=
  match p.current with
  | none => p
  | some c =>
    { p with intake := p.intake.map fun k => if k.id == c.cmd then { k with refusals := min 65535 (k.refusals + 1) } else k }

/-! ### The coder (R44 to R53, R55) -/

/-- The raw bytes the current chunk still needs (R45, R55). -/
def Pe.chunkRoom (p : Pe) : Nat := min (Config.chunkSize - p.chunk.length) (p.raw - p.taken)

/-- The coder begins the item at the front of the intake order (R44, R45, R47, R55). -/
def Pe.beginItem (p : Pe) : Pe :=
  { p with
    coder := if p.raw = 0 then .emitting else .collecting
    emit := .begin_, chunk := [], history := [], table := [], literals := [], output := [], crc := 0xFFFFFFFF, taken := 0,
    compressed := p.compression, entryOpen := false, pieceFirst := false, anyPlaced := false, pieceCoded := 0 }

/-- A full chunk is coded or stored, and placement begins (R45, R47, R51, R55). -/
def Pe.codeFull (p : Pe) : Pe :=
  let c := codeChunk p.compressed p.history (p.taken - p.chunk.length) p.table p.chunk
  { p with
    output := c.output, table := c.table, literals := c.literals, history := slideWindow p.history p.chunk, chunk := [],
    crc := if p.taken = p.raw then ~~~p.crc else p.crc
    coder := .emitting, emit := if p.entryOpen then .place else .begin_ }

/-- The coder takes up to `n` raw bytes (R44, R55). -/
def Pe.takeBytes (p : Pe) (n : Nat) : Pe :=
  let k := min (min n p.fifo.length) p.chunkRoom
  let bytes := p.fifo.take k
  let q := { p with fifo := p.fifo.drop k, chunk := p.chunk ++ bytes, crc := crcBytes p.crc bytes, taken := p.taken + k }
  if 0 < k ∧ q.chunkRoom = 0 then q.codeFull else q

/-- The test of R52 on a stripe with these data bytes and entries. -/
def canBegin (raw dataBytes entries : Nat) : Bool :=
  decide (entries < Config.maxEntries) && decide ((if raw = 0 then 16 else 17) ≤ freeSpace dataBytes entries)

/-- The item's entry is begun in slot `i` (R21, R52, R53, R54). -/
def State.beginEntry (s : State) (i : Nat) : State :=
  let s1 := s.setSlot i fun x => { x with entries := x.entries + 1 }
  let s2 := s1.onPe fun p =>
    { p with entryOpen := true, pieceFirst := !p.anyPlaced, pieceCoded := 0, coder := .emitting,
             emit := if p.raw = 0 then .entry else .place }
  s2.onSpm Spm.restart

/-- EMITTING at an entry to begin: in this slot, or the slot is sealed and a new one asked (R52). -/
def State.tryBegin (s : State) : State :=
  match s.filling with
  | none => s.onPe fun p => { p with coder := .awaitSlot }
  | some i =>
    let x := s.slotAt i
    if canBegin s.pe.raw x.dataBytes x.entries then s.beginEntry i
    else s.triggerSeal.onPe fun p => { p with coder := .awaitSlot }

/-- A FREE slot becomes FILLING for the waiting request, and the entry is begun at once (R21, R24). -/
def State.takeFilling (s : State) (i : Nat) : State :=
  let (stripe, first) := s.nextFilling
  (s.moveSlot i .free .filling fun _ =>
    { Slot.empty with stripe := some stripe, firstRecord := some first, copy := some 0 }).beginEntry i

/-- The Pack Engine's request for a FILLING slot can be taken (R18). -/
def State.fillingWanted (s : State) : Option Nat :=
  if s.pe.coder = .awaitSlot ∧ s.spm.clearing = false ∧ s.spm.sealing = none then s.freeFor .filling else none

/-- The command at the front of the intake order has its last item placed: it completes, or waits as FLUSH does (R39, R40). -/
def State.endCommand (s : State) (c : IntakeCmd) : State :=
  if c.sync then
    (s.onPe fun p => { p with intake := p.intake.map fun k => if k.id == c.id then { k with synced := true } else k }).triggerSeal
  else (s.onPe fun p => { p with intake := p.intake.tail }).complete c.id (okOr c.early) c.detailA c.detailB

/-- An item's entry is written: it leaves the intake order (R52, R53). -/
def State.itemDone (s : State) : State :=
  let s1 := s.onPe fun p =>
    { p with
      coder := .idle, emit := .begin_, entryOpen := false, output := [], crc := 0xFFFFFFFF, anyPlaced := false
      intake :=
        match p.intake with
        | [] => []
        | c :: cs => { c with placed := c.placed + 1 } :: cs }
  match s1.pe.intake.head? with
  | none => s1
  | some c => if c.lengths.length ≤ c.placed then s1.endCommand c else s1

/-- Up to 64 coded bytes within an aligned block go into the FILLING slot (R53, R179). Where the end of a chunk fills the free
space exactly and the record has more chunks, the slot is sealed for space (R23) and the coder goes on to collect the next
chunk; the new slot is asked for when that chunk is decided (DESIGN CHOICE, log entry 64). -/
def State.placeBytes (s : State) (i : Nat) : State :=
  let x := s.slotAt i
  let a := s.slotBase i + Config.headerSize + x.dataBytes
  let k := min (min s.pe.output.length (freeSpace x.dataBytes x.entries)) (64 - a % 64)
  let s1 := (s.onDram fun m => Memory.writeBytes m a (s.pe.output.take k)).setSlot i fun y =>
    { y with dataBytes := y.dataBytes + k }
  let s2 := s1.onPe fun p =>
    { p with
      output := p.output.drop k, pieceCoded := p.pieceCoded + k, anyPlaced := p.anyPlaced || decide (0 < k)
      intake :=
        match p.intake with
        | [] => []
        | c :: cs => { c with coded := c.coded + k } :: cs }
  let s3 := s2.onSpm Spm.restart
  if s3.pe.allPlaced then s3.onPe fun p => { p with emit := .entry }
  else if freeSpace (x.dataBytes + k) x.entries = 0 then
    s3.triggerSeal.onPe fun p => { p with coder := if p.output.isEmpty then .collecting else .awaitSlot }
  else if s3.pe.output.isEmpty then s3.onPe fun p => { p with coder := .collecting }
  else s3

/-- The closed piece's entry goes into the directory of slot `i` (R53). -/
def State.placeEntry (s : State) (i : Nat) : State :=
  let a := s.slotBase i + entryOffset ((s.slotAt i).entries - 1)
  (s.onDram fun m => Memory.writeBytes m a (s.openEntry i true)).itemDone

/-- What the Pack Engine's place at the arbiter has to transfer (R179, place 4): a sealing write, coded bytes, an entry. -/
inductive PackWork where
  | seal (j : SealJob)
  | bytes (slot : Nat)
  | entry (slot : Nat)
  deriving DecidableEq, Repr

/-- The Pack Engine's transfer that waits, if any. -/
def State.packWork (s : State) : Option PackWork :=
  match s.spm.sealing with
  | some j => some (.seal j)
  | none =>
    if s.pe.coder = .emitting ∧ s.pe.entryOpen = true then
      match s.spm.firstIn .filling, s.pe.emit with
      | some i, .place => some (.bytes i)
      | some i, .entry => some (.entry i)
      | _, _ => none
    else none

/-- One sealing write is made; after the last the slot is SEALED (R22). -/
def State.sealStep (s : State) (j : SealJob) : State :=
  match j.writes with
  | [] => s.sealDone j.slot
  | (a, bytes) :: rest =>
    let s1 := s.onDram fun m => Memory.writeBytes m a bytes
    if rest.isEmpty then s1.sealDone j.slot else s1.onSpm fun m => { m with sealing := some { j with writes := rest } }

/-- The Pack Engine's transfer is made. -/
def State.doPackWork (s : State) : PackWork → State
  | .seal j => s.sealStep j
  | .bytes i => s.placeBytes i
  | .entry i => s.placeEntry i

end Sys2Proof.Machine
end

