-- ==== Sys2Proof/Machine/Transfer.lean ====
section
/-! DEFINITION. The write side of the Tape Transfer Engine (chapter 4): arming, terminations, read-after-write verification,
permanent failure, opening and settling a session. -/

namespace Sys2Proof.Machine

/-! ### Verification (R71 to R74) -/

/-- A report verifies good (R71). -/
def verifyGood (headerValid : Bool) (c : Counts) (threshold : Nat) : Bool :=
  headerValid && c.rows == 0 && decide (c.maxCorrected ≤ threshold)

/-- The AWAIT_VERIFY stripe is judged good: VERIFIED, scored, freed in order (R27, R28, R160). It is scored before the stripes
that it lets go are freed, so that a note of the score carries the position as it stood (DESIGN CHOICE, log entry 76). -/
def State.judgeGood (s : State) (i : Nat) (c : Counts) : State :=
  let stripe := (s.slotAt i).stripe.getD 0
  let s1 := (s.moveSlot i .awaitVerify .verified id).onTte fun t => { t with verify := none }
  (s1.score true false (some c) stripe).freeRun

/-- The cleaning index is raised to at least 700, cause 2 (R165). -/
def State.raiseIndex (s : State) : State := s.setIndex (max s.hm.ci 700) 2

/-- The permanent failure of a stripe with copy number 3 (R74, R165). -/
def State.permanentFailure (s : State) (i : Nat) (c : Option Counts) : State :=
  let x := s.slotAt i
  let p := x.pos.getD { pass := 0, mark := 0 }
  let s1 := s.enterWriteFailed .verify
  (s1.note .writeFailed (dv 4 (x.stripe.getD 0) ++ dv 1 p.pass ++ du 3)
    (dv 2 p.mark ++ (match c with | some k => dv 2 k.rows ++ dv 1 k.maxCorrected | none => du 3)
      ++ dv 1 (if c.isSome then 0 else 1) ++ du 2)).raiseIndex

/-- A stripe leaves the run without being kept, under a clearing ABORT (R35). -/
def State.dropSlot (s : State) (i : Nat) : State :=
  let stripe := (s.slotAt i).stripe
  ((s.onSpm fun m => { m with dropFrom := minOpt m.dropFrom stripe }).freeSlot i).freeRun

/-- The AWAIT_VERIFY stripe is judged failed, with its report's counts or for want of one (R27, R71, R72). A failure with
copy number 3 raises the index also where no rewrite was due any more (R165); there it posts no WRITE_FAILED note and leaves
the failure cause as it stands, of which R27 and R74 say nothing (DESIGN CHOICE, log entry 79). The outcome is scored while the
direction still stands, before a permanent failure makes it WRITE_FAILED (R71, R74; DESIGN CHOICE, log entry 109). -/
def State.judgeFailed (s : State) (i : Nat) (c : Option Counts) : State :=
  let x := s.slotAt i
  let copy := x.copy.getD 0
  let s1 := (s.onTte fun t => { t with verify := none }).moveSlot i .awaitVerify .sealed fun y =>
    { y with copy := some (min 3 (copy + 1)) }
  let s2 := s1.score true true c (x.stripe.getD 0)
  if copy < 3 then (if s.spm.clearing then s2.dropSlot i else s2)
  else if s.spm.clearing then s2.raiseIndex.dropSlot i
  else if s.spm.direction = .writeOpen then s2.permanentFailure i c
  else s2.raiseIndex

/-- The verify deadline passes: an outstanding report counts as missing (R72). -/
def State.deadline (s : State) : State :=
  match s.tte.verify with
  | some v => s.judgeFailed v.slot none
  | none => s

/-! ### Arming and terminations (R66 to R69) -/

/-- The header is stamped for the write point (R7). -/
def State.stampSlot (s : State) (i : Nat) (p : TapePos) : State :=
  let old := Memory.readBytes s.dram (s.slotBase i) Config.headerSize
  s.onDram fun m => Memory.writeBytes m (s.slotBase i) (stampHeader old p ((s.slotAt i).copy.getD 0))

/-- The head of the write queue is armed at the write point (R66), a stripe start of the governor (R65, R107). -/
def State.armHead (s : State) (i : Nat) (p : TapePos) : State :=
  let s1 := s.moveSlot i .sealed .writing fun x => { x with pos := some p }
  let s2 := (s1.stampSlot i p).onTte fun t =>
    { t with inFlight := some { slot := i, transfer := false, fetched := 0, sent := 0 }, fifo := [] }
  ((s2.onMc fun m => m.loadStart p).onRg fun r => { r with flushed := false }).evaluate

/-- End of media while writing (R80). -/
def State.mediaEnd (s : State) : State := s.enterWriteFailed .mediaEnd

/-- The run-on begins, over this many marks still to be counted (R69). -/
def State.runOnNow (s : State) (marks : Nat) : State :=
  s.onTte fun t => { t with runOn := some marks, underrun := false, verify := t.verify.map fun v => { v with runOn := true } }

/-- The run-on over a position that came up with no stripe armed; an empty write queue makes it an underrun (R66, R110).
One that comes up in a thermal pause is none, whatever the queue: the stop is the pause's (R114, R133), and a pause that comes
after the run-on began changes nothing here (DESIGN CHOICE, log entry 119). -/
def State.runOver (s : State) (marks : Nat) : State :=
  (s.runOnNow marks).onTte fun t =>
    { t with underrun := s.spm.direction == .writeOpen && !s.spm.clearing && s.mc.thermal == .normal && s.spm.head.isNone }

/-- The tape turns while writing: a stripe awaiting verify gets its run-on on the deceleration of the turnaround (R69, R121). -/
def State.turnWriting (s : State) : State :=
  let s1 := s.onMc Mc.turn
  if s1.tte.verify.isSome then s1.runOnNow 0 else s1

/-- The pass is over for writing: the write point is the first position of the next pass, and the tape turns (R66). -/
def State.writeTurn (s : State) (p : TapePos) : State :=
  (s.onTte fun t => { t with writePoint := some p.nextPass }).turnWriting

/-- The stripe in flight goes back to SEALED, its copy number unchanged, or is dropped under ABORT (R26, R68). -/
def State.returnInFlight (s : State) : State :=
  match s.tte.inFlight with
  | none => s
  | some f =>
    let s1 := (s.onTte fun t => { t with inFlight := none, fifo := [] }).moveSlot f.slot .writing .sealed id
    if s.spm.clearing then s1.dropSlot f.slot else s1

/-- Channel end (R68); the end of a transfer is a deadline for the stripe before it (R72). -/
def State.channelEnd (s : State) : State :=
  match s.tte.inFlight with
  | none => s
  | some f => (if f.transfer then s.deadline else s).returnInFlight

/-- Streaming is ended by a speed fault or a fault stop: channel end, and the deadline passes (R68, R72, R82). A following stripe
that is only ARMED goes back first, and with none in flight then the deadline passes at once (DESIGN CHOICE, log entry 90). -/
def State.cutWriting (s : State) : State := (s.channelEnd.deadline).onTte fun t => { t with runOn := none, underrun := false }

/-- The transfer begins: its position is consumed (R67). -/
def State.startTransfer (s : State) (f : InFlight) : State :=
  let s1 := s.onTte fun t =>
    { t with inFlight := some { f with transfer := true }, writePoint := t.writePoint.map TapePos.nextPosition }
  match s1.tte.writePoint with
  | some p => s1.onMc fun m => m.loadStart p
  | none => s1

/-- The count termination (R68): the deadline of the stripe before it comes first (R72). -/
def State.countEnd (s : State) (f : InFlight) : State :=
  let s1 := s.deadline
  let mark := (((s1.slotAt f.slot).pos).map (·.mark)).getD 0
  (s1.moveSlot f.slot .writing .awaitVerify id).onTte fun t =>
    { t with inFlight := none, fifo := []
             verify := some { slot := f.slot, mark := mark, runOn := t.runOn.isSome } }

/-- Whether the write session still arms stripes (R69, R74, R81). -/
def State.arming (s : State) : Bool := s.spm.direction == .writeOpen && !s.spm.clearing

/-- The run-on ends (R69, R72, R110): the deadline passes; the tape turning goes on turning, and a streaming tape
repositions after an underrun that no FLUSH has emptied the write side under, or stops. -/
def State.endRunOn (s : State) : State :=
  let s1 := s.deadline.onTte fun t => { t with runOn := none, underrun := false }
  if s1.mc.state = .streaming then
    if s.tte.underrun && s1.arming && !s1.rg.flushed then (s1.onRg fun r => { r with stopKind := .underrun }).reposition
    else s1.onMc Mc.decelerate
  else s1

/-! ### Opening (R62 to R64) -/

/-- A position is at a stripe boundary: kept so, or at the directory's end of data (R12), also where delivery has brought it there
and R100 calls the stripe not yet accepted no boundary (DESIGN CHOICE, log entry 92). -/
def State.atBoundary (s : State) (p : DsPos) : Bool := p.boundary || (p.stripe, p.record) == s.endOfData

/-- The conditions of R62 in their order; `none` when all hold. `self` is true when the re-check of R63 is made. -/
def State.openWriteCheck (s : State) : Option Result :=
  if s.spm.direction = .writeFailed then some s.causeResult
  else if s.mc.state ≠ .ready then some .refusedState
  else if s.unloading then some .refusedState
  else if s.spm.direction ≠ .none then some .refusedState
  else if s.spm.n = 0 then some .refusedState
  else if s.pins.writeProtect then some .writeProtected
  else if s.cml.condition = .absent then some .cartridgeMemoryError
  else if s.cml.condition = .stale then some .directoryStale
  else if 65535 ≤ ((s.cml.directory.map (·.generation)).getD 0) then some .refusedState
  else
    match s.mc.dsPos with
    | some p => if s.atBoundary p = true ∧ p.stripe ≤ s.endOfData.1 then none else some .notAtBoundary
    | none => some .notAtBoundary

/-- The write point for a boundary (R64, step 3). -/
def State.writePointFor (s : State) (p : DsPos) : TapePos :=
  match s.cml.directory with
  | some d => if p.stripe = d.eodStripe then d.endPos else p.carried
  | none => p.carried

/-- The session opens (R64) and OPEN_WRITE completes OK. -/
def State.openSession (s : State) (id : Nat) : State :=
  match s.mc.dsPos with
  | none => s
  | some p =>
    let w := s.writePointFor p
    let s1 := s.truncateDirectory p.stripe p.record w
    let s2 := s1.onTte fun t =>
      { t with writePoint := some w, cause := none, inFlight := none, verify := none, runOn := none, underrun := false }
    let s3 := s2.onSpm fun m => { m with direction := .writeOpen, clearing := false, dropFrom := none }
    let s4 := s3.onPe fun e => { e with cursor := 0, nextRecord := p.record }
    let s5 := s4.openRate
    let generation := (s5.cml.directory.map (·.generation)).getD 0
    s5.complete id .ok (dv 4 p.stripe ++ dv 2 generation ++ du 2) (dv 4 p.record ++ dv 1 w.pass ++ dv 2 w.mark ++ du 1)

/-- Nothing is WRITING or AWAIT_VERIFY. -/
def State.writingDone (s : State) : Bool := s.tte.inFlight.isNone && s.tte.verify.isNone

/-- ABORT reaches the write side (R81): an ARMED stripe ends by channel end, FILLING and SEALED slots are freed. -/
def State.abortWrite (s : State) : State :=
  let s1 :=
    match s.tte.inFlight with
    | some f => if f.transfer then s else s.returnInFlight
    | none => s
  s1.clearWrite

end Sys2Proof.Machine
end

