-- ==== Sys2Proof/Machine/Readback.lean ====
section
/-! DEFINITION. The read side of the Tape Transfer Engine (chapter 5): slots to read into, rulings on receptions (R88, R89),
the missing-stripe window and retries (R90), failure markers (R91), end of data (R92). -/

namespace Sys2Proof.Machine

/-- Updates the reading state, if it is present. -/
def State.onRead (s : State) (f : ReadState → ReadState) : State := s.onTte fun t => { t with read := t.read.map f }

/-- The number of FREE slots (R18). -/
def State.freeCount (s : State) : Nat := s.spm.count .free

/-! ### Stopping and starting read-ahead -/

/-- A slot's generation field, as its header lies in DRAM (R7). -/
def State.slotGeneration (s : State) (i : Nat) : Nat := ofLe (Memory.readBytes s.dram (s.slotBase i + 4) 2)

/-- The reception in flight is abandoned; its slot becomes FREE and the read point returns to its position (R87). -/
def State.abandonReception (s : State) : State :=
  match s.tte.read.bind (·.reception) with
  | none => s.onRead fun r => { r with asked := false }
  | some x =>
    ((s.freeSlot x.slot).onTte fun t => { t with fifo := [] }).onRead fun r =>
      { r with reception := none, asked := false, point := some x.pos }

/-- A start asked for where only the threshold was waited for (R114, R133), after a BACKPRESSURE stop too (DESIGN CHOICE, log
entry 120). -/
def ReadAsk.ask : ReadAsk → ReadAsk
  | .threshold => .asked
  | r => r

/-- What the stopped reading tape waits for; a start asked for by the Motion Controller begins a new run (R112, R114). -/
def Rg.await (r : Rg) (kind : StopKind) (ask : ReadAsk) : Rg :=
  { r with stopKind := kind, readStart := ask, held := none, newRun := r.newRun || ask == .asked }

/-- Reading leaves streaming and repositions to the read point (R112, R122). -/
def State.readReposition (s : State) (kind : StopKind) (ask : ReadAsk) : State :=
  s.abandonReception.reposition.onRg fun r => r.await kind ask

/-- A retry is in progress (R90). -/
def State.retrying (s : State) : Bool := (s.tte.read.map (·.inRetry)).getD false

/-- Streaming begins at the read point: a new run, but where a retry starts of itself (R85, R110, R113, R114). The start that
follows a failure marker placed with the tape stopped is a new run, with the run length 0 (DESIGN CHOICE, log entry 82). -/
def State.startRead (s : State) (p : TapePos) : State :=
  let s1 := s.onRg fun g => if s.retrying && !g.newRun then g.await .none .threshold else g.startRun
  s1.onMc fun m => m.stream p s1.readSpeed

/-- Read-ahead may go on: end of data is not found and no marker or retry is due. -/
def ReadState.going (r : ReadState) : Bool := r.eod.isNone && !r.retryDue && !r.markerAsked

/-- The tape is brought up for read-ahead if it can be; else a start is asked for (R85, R133). -/
def State.beginRead (s : State) : State :=
  match s.tte.read with
  | some r =>
    match r.point with
    | some p =>
      if r.eod.isSome then s
      else if s.mc.state = .ready ∧ s.mc.thermal = .normal then s.startRead p
      else s.onRg fun g => { g with readStart := .asked }
    | none => s
  | none => s

/-- The read state as OPEN_READ forms it from the data-set position (R84, R85). -/
def State.formRead (s : State) (p : DsPos) : State :=
  let eod :=
    match s.validDirectory with
    | some d => if d.eodStripe ≤ p.stripe then some ({ stripe := d.eodStripe, byDirectory := true } : EodFound) else none
    | none => none
  s.onTte fun t =>
    { t with
      markers := []
      read := some
        { point := some p.carried, reception := none, asked := false, n := p.stripe, floor := none, window := none,
          retries := 0, inRetry := false, retryDue := false, blanks := 0, eod := eod, markerAsked := false,
          firstBad := none } }

/-- Read-side slots become FREE and the reading is abandoned (R31, R33); `gone` makes the read state absent. -/
def State.clearRead (s : State) (gone : Bool) : State :=
  let s1 := (s.abandonReception).freeAll fun x => x.state.readSide && (gone || x.state != .delivering)
  let s2 := s1.onTte fun t =>
    { t with
      markers := []
      read :=
        if gone then none
        else t.read.map fun r =>
          { r with point := none, floor := none, window := none, retries := 0, inRetry := false, retryDue := false,
                   blanks := 0, eod := none, markerAsked := false, firstBad := none } }
  s2.onRg fun r => r.await .none .threshold

/-- The direction leaves READ_OPEN for NONE (R33, R102). -/
def State.leaveRead (s : State) : State :=
  ((s.clearRead true).onSpm fun m => { m with direction := .none }).onRg Rg.leave

/-! ### End of data and the window (R89 to R92) -/

/-- End of data as settled: one found with the window open makes a retry due instead (R92). -/
def ReadState.end_ (r : ReadState) : Option EodFound := if r.window.isNone then r.eod else none

/-- End of data is settled at or below a stripe (R92, R95, R97). -/
def State.endReached (s : State) (stripe : Nat) : Bool :=
  ((s.tte.read.bind ReadState.end_).map fun e => decide (e.stripe ≤ stripe)).getD false

/-- End of data is found (R92): with the window open a retry is due, else read-ahead ends and the tape stops. -/
def State.foundEod (s : State) (e : EodFound) : State :=
  match s.tte.read with
  | none => s
  | some r =>
    if r.window.isSome then s.onRead fun q => { q with eod := some e, retryDue := true, asked := false }
    else
      let s1 := (s.onRead fun q => { q with eod := some e, asked := false }).onRg fun g => g.await .none .threshold
      if s1.mc.state = .streaming then s1.onMc Mc.decelerate else s1

/-- n past every number that a READ_DONE or READ_FAILED slot carries (R89). -/
def advanceOver (carried : List Nat) : Nat → Nat → Nat
  | 0, n => n
  | f + 1, n => if carried.contains n then advanceOver carried f (n + 1) else n

/-- The numbers READ_DONE and READ_FAILED slots carry (R89). -/
def Spm.carried (m : Spm) : List Nat := (m.numbered fun x => x.state == .readDone || x.state == .readFailed).map (·.1)

/-- The window after n has advanced: opened anew at the lowest READ_DONE slot above n, else CLOSED (R89). -/
def State.windowAfter (s : State) (n : Nat) : Option Window :=
  match lowestOf ((s.spm.numbered (·.state == .readDone)).filter fun x => n < x.1) with
  | some (_, i) => (s.slotAt i).pos.map fun p => { origin := p, count := 0, counting := true }
  | none => none

/-- The generation of the READ_DONE slot just below n, if there is one; else the floor as it stands (R89). -/
def State.floorBelow (s : State) (n : Nat) (floor : Option Nat) : Option Nat :=
  match highestOf ((s.spm.numbered (·.state == .readDone)).filter fun x => x.1 < n) with
  | some (_, i) => some (s.slotGeneration i)
  | none => floor

/-- n has been accepted or marked: n advances, the window closes or opens anew, the retry ends (R89, R91). -/
def State.advanceN (s : State) (takeFloor : Bool) : State :=
  match s.tte.read with
  | none => s
  | some r =>
    let n := advanceOver s.spm.carried s.spm.n r.n
    let s1 := s.onRead fun q =>
      { q with n := n, window := s.windowAfter n, retries := 0, inRetry := false, retryDue := false
               firstBad := none
               floor := if takeFloor then s.floorBelow n q.floor else q.floor }
    match s.validDirectory with
    | some d => if d.eodStripe ≤ n then s1.foundEod { stripe := d.eodStripe, byDirectory := true } else s1
    | none => s1

/-! ### Reading a position (R86) -/

/-- A slot is asked for the read point: the lowest FREE one becomes READING, or the request waits (R29, R86). A reception
outside a retry is a stripe start (R107, R110). -/
def State.askSlot (s : State) (p : TapePos) : State :=
  match s.freeFor .reading with
  | none => s.onRead fun r => { r with asked := true }
  | some i =>
    let s1 := (s.moveSlot i .free .reading fun _ => Slot.empty).onRead fun r =>
      { r with asked := false
               reception := some { slot := i, pos := p, overrun := false, started := false, stored := 0 } }
    match s.tte.read with
    | some r => if r.inRetry then s1 else s1.evaluate
    | none => s1

/-- The place a retry reads from: the position containing the mark 12 marks before the origin (R90). -/
def retryPoint (origin : TapePos) : TapePos := (origin.before 12).position

/-- No FREE slot at a position's start mark (R86, R90, R112): backpressure, a retry's wait, or a retry. -/
def State.blocked (s : State) (r : ReadState) : State :=
  match r.window with
  | none => s.readReposition .backpressure .threshold
  | some w =>
    if r.inRetry && r.point == some (retryPoint w.origin) then s.readReposition .none .threshold
    else (s.readReposition .none .threshold).onRead fun q => { q with retryDue := true }

/-! ### Rulings (R88, R89) -/

/-- The rulings of R88. -/
inductive Ruling where
  | overrun | missing | blank | badHeader | beyond | duplicate | oldGeneration | badRows | accepted
  deriving DecidableEq, Repr

/-- A ruling that counts as a bad copy of n (R88). -/
def Ruling.bad : Ruling → Bool
  | .overrun | .missing | .badHeader | .badRows => true
  | _ => false

/-- The reference generation of a copy numbered x (R88). -/
def State.referenceGeneration (s : State) (r : ReadState) (x : Nat) : Option Nat :=
  match highestOf ((s.spm.numbered (·.state == .readDone)).filter fun y => r.n < y.1 ∧ y.1 < x) with
  | some (_, i) => some (s.slotGeneration i)
  | none => r.floor

/-- The first test of R88 that applies; `report` is the blank flag, the header judgement and the counts. A reception that both
overran and lacks its report counts as an overrun, which is not scored (R88, R160; DESIGN CHOICE, log entry 112). -/
def State.ruling (s : State) (r : ReadState) (x : Reception) (h : Header) (report : Option (Bool × Bool × Counts)) :
    Ruling :=
  match report with
  | none => if x.overrun then .overrun else .missing
  | some (blank, valid, counts) =>
    if x.overrun then .overrun
    else if blank then .blank
    else if !valid then .badHeader
    else if (s.validDirectory.map fun d => decide (d.eodStripe ≤ h.stripe)).getD false then .beyond
    else if decide (h.stripe < r.n) || s.spm.carried.contains h.stripe
        || (s.spm.numbered (·.state == .delivering)).any (·.1 == h.stripe) then .duplicate
    else if ((s.referenceGeneration r h.stripe).map fun g => decide (h.generation < g)).getD false then .oldGeneration
    else if counts.rows ≠ 0 then .badRows
    else .accepted

/-- The window after a ruling at a place (R88, R90): an open one counts it; a bad copy opens a closed one. -/
def ruledWindow (w : Option Window) (bad : Bool) (p : TapePos) : Option Window :=
  match w with
  | some v =>
    if v.counting then some { v with count := v.count + 1 }
    else if v.origin.pass < p.pass ∨ (p.pass = v.origin.pass ∧ v.origin.position.offset ≤ p.offset) then
      some { v with count := 0, counting := true }
    else some v
  | none => if bad then some { origin := p, count := 0, counting := true } else none

/-- An accepted copy becomes READ_DONE with its header's fields and place (R29, R89). -/
def State.acceptSlot (s : State) (x : Reception) (h : Header) : State :=
  s.moveSlot x.slot .reading .readDone fun _ =>
    { Slot.empty with stripe := some h.stripe, dataBytes := h.dataBytes, entries := h.entries, firstRecord := some h.first,
                      pos := some x.pos }

/-- What acceptance does to n and the window (R89). -/
def State.afterAccept (s : State) (r : ReadState) (x : Reception) (h : Header) : State :=
  if h.stripe = r.n then s.advanceN true
  else if (s.tte.read.bind (·.window)).isNone then
    s.onRead fun q => { q with window := some { origin := x.pos, count := 0, counting := true } }
  else s

/-- The score a ruling hands to the Health Monitor (R88, R160). -/
def State.scoreRuling (s : State) (r : ReadState) (h : Header) (counts : Option Counts) : Ruling → State
  | .accepted => s.score false r.inRetry counts h.stripe
  | .badHeader | .badRows => s.score false true counts r.n
  | .missing => s.score false true none r.n
  | _ => s

/-- An open window whose count has reached 8 makes a retry due (R90). -/
def State.windowFull (s : State) : State :=
  s.onRead fun q =>
    match q.window with
    | some w => if 8 ≤ w.count then { q with retryDue := true, asked := false } else q
    | none => q

/-- The bytes that the channel delivered and that still lie in the FIFO pass into the slot of reception `x` (R86), without
further grants, as its report comes (DESIGN CHOICE, log entry 36). -/
def State.storeRest (s : State) (x : Reception) : State :=
  (s.onDram fun m =>
    Memory.writeBytes m (s.slotBase x.slot + x.stored) (s.tte.fifo.take (Config.stripeSize - x.stored))).onTte fun t =>
      { t with fifo := [] }

/-- A reception is ruled on (R88, R89). -/
def State.rule (s : State) (r : ReadState) (x : Reception) (report : Option (Bool × Bool × Counts)) : State :=
  let h := Header.ofBytes (Memory.readBytes s.dram (s.slotBase x.slot) Config.headerSize)
  let k := s.ruling r x h report
  let s1 := if k = .accepted then s.acceptSlot x h else s.freeSlot x.slot
  let s2 := (s1.onTte fun t => { t with fifo := [] }).onRead fun q =>
    { q with reception := none, blanks := if k = .blank then q.blanks + 1 else 0
             window := ruledWindow q.window k.bad x.pos
             firstBad := if k.bad then q.firstBad.or (some x.pos) else q.firstBad }
  let s3 := s2.scoreRuling r h (report.map (·.2.2)) k
  let s4 := if k = .accepted then s3.afterAccept r x h else s3
  let s5 :=
    if k = .oldGeneration ∨ (k = .blank ∧ 2 ≤ r.blanks + 1) then
      s4.foundEod { stripe := r.n, byDirectory := false }
    else s4
  s5.windowFull

/-- A report that is due has not come: the reception is ruled a bad copy for want of it (R87). -/
def State.ruleMissing (s : State) : State :=
  match s.tte.read with
  | some r =>
    match r.reception with
    | some x => if x.started then s.rule r x none else s
    | none => s
  | none => s

/-- The reading reaches the end of a pass: the tape turns, or end of media is end of data (R5, R86, R92). The end of pass 63
lies where the next position's start mark would: a report that is still due there counts as missing before the end is settled
(R87; DESIGN CHOICE, log entry 77). -/
def State.readTurn (s : State) (p : TapePos) : State :=
  if p.pass < Config.lastPass then
    (s.onMc Mc.turn).onRead fun r => { r with point := some p.nextPass, asked := false }
  else
    let s1 := s.ruleMissing
    match s1.tte.read with
    | some r => s1.foundEod { stripe := r.n, byDirectory := false }
    | none => s1

/-! ### Retries and markers (R90, R91) -/

/-- The failure marker for n takes slot `i` (R29, R91). It keeps the place of n's first bad copy, or where n had none the
window's origin, which in a second round is the old marker's: R91 does not say which first bad copy the marker of a second round
keeps (DESIGN CHOICE, log entry 118). R29 gives no first record number, though R16 has the field present with the stripe number:
it stays absent (DESIGN CHOICE, log entry 56). A tape that stands starts again with one FREE slot (DESIGN CHOICE, log entry 57).
-/
def State.placeMarker (s : State) (i : Nat) : State :=
  match s.tte.read with
  | none => s
  | some r =>
    let origin := r.firstBad.getD ((r.window.map (·.origin)).getD (r.point.getD { pass := 0, mark := 0 }))
    let s1 := s.moveSlot i .free .readFailed fun _ => { Slot.empty with stripe := some r.n }
    let s2 := s1.onTte fun t => { t with markers := t.markers ++ [{ stripe := r.n, origin := origin, met := false }] }
    let s3 := (s2.onRead fun q => { q with markerAsked := false, eod := none }).advanceN false
    let s4 :=
      match r.eod, s3.tte.read with
      | some e, some q => s3.foundEod { e with stripe := if e.byDirectory then e.stripe else q.n }
      | _, _ => s3
    if (r.eod.isNone) && s4.mc.state != .streaming then s4.onRg fun g => { g with readStart := .anyFree } else s4

/-- A retry begins (R90, steps 1 to 4). One that begins while the tape waits after a BACKPRESSURE stop, as a marker met again
can make it, drops the stop kind: its start takes no penalty and the run length goes on (DESIGN CHOICE, log entry 68). -/
def State.beginRetry (s : State) (r : ReadState) (w : Window) : State :=
  let s1 := (s.abandonReception).freeAll fun x => x.state == .readDone && decide (r.n < x.stripe.getD 0)
  let s2 := s1.onRead fun q =>
    { q with
      retries := q.retries + 1, inRetry := true, retryDue := false, blanks := 0
      eod := match q.eod with | some e => if e.byDirectory then some e else none | none => none
      point := some (retryPoint w.origin), window := some { w with count := 0, counting := false } }
  let s3 := if s2.mc.state = .streaming ∨ s2.mc.state = .turnaround then s2.reposition else s2
  s3.onRg fun g => g.await .none .atOnce

/-- A marker met a second time is freed, and a new round for its number begins (R30, R91) from the origin the marker kept. The
round has no first bad copy yet: a marker placed after it keeps the round's own, and with none this origin (DESIGN CHOICE, log
entry 118). The slot is not one freed by delivery: it gives no rate sample (R106; DESIGN CHOICE, log entry 127). -/
def State.newRound (s : State) (i : Nat) (m : Marker) : State :=
  ((s.freeSlot i).onTte fun t => { t with markers := t.markers.filter (·.stripe != m.stripe) }).onRead fun r =>
    { r with
      n := m.stripe, floor := none, retries := 0, inRetry := false, retryDue := true, eod := none, markerAsked := false,
      firstBad := none
      window := some { origin := m.origin, count := 0, counting := false } }

end Sys2Proof.Machine
end

