-- ==== Sys2Proof/Machine/Deliver.lean ====
section
/-! DEFINITION. The Unpack Engine (chapter 5, R93 to R100) and the decoder with its checks (R59, R60). -/

namespace Sys2Proof.Machine

/-! ### The decoder -/

/-- The parts of a delivery the decoder moves (R93). -/
structure Decoding where
  decoder : Decoder
  produced : Nat
  output : List Byte
  crc : Word32
  deriving DecidableEq, Repr

/-- What one move of the decoder gives: it moved, it needs coded bytes, the record's stream is over, or a check of R60
failed. -/
inductive Micro where
  | moved (d : Decoding)
  | blocked
  | over
  | error
  deriving DecidableEq, Repr

/-- The decoder produces a byte (R59). -/
def Decoding.emit (d : Decoding) (b : Byte) : Decoding :=
  { decoder := { d.decoder with
      history := (b :: d.decoder.history).take Config.windowSize
      chunk := d.decoder.chunk.map fun c => { c with made := c.made + 1 } }
    produced := d.produced + 1, output := d.output ++ [b], crc := crcByte d.crc b }

/-- A payload byte is used. -/
def Decoding.use (d : Decoding) (n : Nat) : Decoding :=
  { d with decoder := { d.decoder with
      input := d.decoder.input.drop n
      chunk := d.decoder.chunk.map fun c => { c with left := c.left - n } } }

/-- The token changes. -/
def Decoding.token (d : Decoding) (t : Token) : Decoding := { d with decoder := { d.decoder with token := t } }

/-- A chunk header's value is judged (R59, R60: chunk size, compressed flag). -/
def Decoding.openChunk (d : Decoding) (raw : Nat) (compressed : Bool) (v : Nat) : Micro :=
  let e := min Config.chunkSize (raw - d.produced)
  let opened (stored : Bool) (left : Nat) : Micro :=
    .moved { d with decoder := { d.decoder with
      header := none, chunk := some { stored := stored, left := left, size := e, made := 0 }, token := .none } }
  if 32768 ≤ v then (if v - 32768 = e then opened true (v - 32768) else .error)
  else if compressed = true ∧ 1 ≤ v ∧ v ≤ e then opened false v
  else .error

/-- A token is begun with its operands, bounds checked before it is applied (R46, R60). -/
def Decoding.beginToken (d : Decoding) (c : ChunkState) : Micro :=
  let fits (n : Nat) : Bool := decide (c.made + n ≤ c.size)
  match d.decoder.input with
  | [] => .blocked
  | c0 :: rest =>
    let v := c0.toNat
    if v < 64 then
      if c.left < v + 2 ∨ fits (v + 1) = false then .error else .moved ((d.use 1).token (.literal (v + 1)))
    else if v < 128 then
      if c.left < 2 ∨ fits (v - 64 + 3) = false then .error
      else
        match rest with
        | x :: _ => .moved ((d.use 2).token (.repeat_ x (v - 64 + 3)))
        | [] => .blocked
    else
      let l := (v - 128) / 16
      let o := (v - 128) % 16
      if c.left < (if l = 7 then 3 else 2) then .error
      else
        match l, rest with
        | 7, b :: e :: _ =>
          let offset := o * 256 + b.toNat + 1
          if d.produced < offset ∨ fits (10 + e.toNat) = false then .error
          else .moved ((d.use 3).token (.copy offset (10 + e.toNat)))
        | 7, _ => .blocked
        | _, b :: _ =>
          let offset := o * 256 + b.toNat + 1
          if d.produced < offset ∨ fits (l + 3) = false then .error
          else .moved ((d.use 2).token (.copy offset (l + 3)))
        | _, [] => .blocked

/-- One move of the decoder (R59, R60). -/
def Decoding.micro (d : Decoding) (raw : Nat) (compressed : Bool) : Micro :=
  match d.decoder.chunk with
  | none =>
    if d.produced = raw then .over
    else
      match d.decoder.header, d.decoder.input with
      | _, [] => .blocked
      | none, b :: _ => .moved { d.use 1 with decoder := { (d.use 1).decoder with header := some b } }
      | some lo, hi :: _ => (d.use 1).openChunk raw compressed (lo.toNat + 256 * hi.toNat)
  | some c =>
    match d.decoder.token with
    | .literal (n + 1) =>
      match d.decoder.input with
      | b :: _ => .moved (((d.use 1).emit b).token (if n = 0 then .none else .literal n))
      | [] => .blocked
    | .repeat_ b (n + 1) => .moved ((d.emit b).token (if n = 0 then .none else .repeat_ b n))
    | .copy o (n + 1) => .moved ((d.emit (d.decoder.history.getD (o - 1) 0)).token (if n = 0 then .none else .copy o n))
    | _ =>
      if c.stored && decide (0 < c.left) then
        match d.decoder.input with
        | b :: _ => .moved ((d.use 1).emit b)
        | [] => .blocked
      else if c.left = 0 then
        if c.made = c.size then .moved { d with decoder := { d.decoder with chunk := none } } else .error
      else d.beginToken c

/-- How a run of the decoder ends: the buffer is full or the moves are spent, or as `Micro` says. -/
inductive RunEnd where
  | paused | blocked | over | error
  deriving DecidableEq, Repr

/-- The decoder runs until the output buffer holds 256 bytes and more are due, unless the output is discarded (R93, R98). -/
def Decoding.run (raw : Nat) (compressed discard : Bool) : Nat → Decoding → Decoding × RunEnd
  | 0, d => (d, .paused)
  | n + 1, d =>
    let e := if discard then { d with output := [] } else d
    if Config.smallFifo ≤ e.output.length ∧ e.produced ≠ raw then (e, .paused)
    else
      match e.micro raw compressed with
      | .moved f => Decoding.run raw compressed discard n f
      | .blocked => (e, .blocked)
      | .over => (e, .over)
      | .error => (e, .error)

/-! ### Entries (R9) -/

/-- An entry of a slot. -/
def State.entryAt (s : State) (i e : Nat) : Entry := Entry.ofBytes (s.entryBytes i e)

/-- The offset in the stripe of entry `e`'s piece (R9). -/
def State.pieceOffset (s : State) (i e : Nat) : Nat :=
  Config.headerSize + ((List.range e).map fun k => (s.entryAt i k).coded).sum

/-- The checks of R9 on an entry by itself. -/
def State.entryOk (s : State) (i e : Nat) : Bool :=
  let x := s.entryAt i e
  decide (e < (s.slotAt i).entries) && entryZerosOk (s.entryBytes i e) && x.index == e && x.shapeOk
    && decide (s.pieceOffset i e + x.coded ≤ Config.headerSize + (s.slotAt i).dataBytes)

/-! ### Ending a delivery (R98 to R100) -/

/-- A slot freed by delivery gives a rate sample (R30, R106). -/
def State.deliveredFree (s : State) (i : Nat) : State := (s.freeSlot i).sampleRate

/-- The position after record `r`, whose last piece is entry `e` of slot `i` (R99, R100). -/
def State.advancedPos (s : State) (i e r : Nat) : DsPos :=
  let x := s.slotAt i
  let t := x.stripe.getD 0
  let left := x.pos.getD { pass := 0, mark := 0 }
  let stripe := if e + 1 < x.entries then t else t + 1
  let found := (s.spm.numbered fun y => y.state == .readDone || y.state == .delivering).find? (·.1 == stripe)
  match found with
  | some (_, j) =>
    let y := s.slotAt j
    { stripe := stripe, record := r + 1
      boundary := decide (y.firstRecord = some (r + 1)) && (s.entryAt j 0).first
      carried := y.pos.getD left, below := false }
  | none => { stripe := stripe, record := r + 1, boundary := false, carried := left, below := true }

/-- The DELIVERING slot goes back to READ_DONE (R30). -/
def State.returnSlot (s : State) : State :=
  match s.spm.firstIn .delivering with
  | some i => s.moveSlot i .delivering .readDone id
  | none => s

/-- The record a delivery is at: its number and its raw length, 0 where the entry was not reached (R98). An entry that fails
its checks counts as not reached: DESIGN CHOICE, log entry 58. -/
def State.deliveryRecord (s : State) : Nat × Nat :=
  match s.ue.record, s.mc.dsPos with
  | some d, _ => (d.number, d.raw)
  | none, some p => (p.record, 0)
  | none, none => (0, 0)

/-- A delivery of record `x` ends with a result; the output buffer is emptied and L is set to the cursor (R98). -/
def State.endDelivery (s : State) (x : Nat × Nat) (r : Result) (residual : Option Nat) (stripe : Nat) : State :=
  match s.ue.cmd with
  | none => s
  | some id =>
    let b := (match residual with | some k => dv 4 k | none => du 4) ++ dv 4 stripe
    (s.complete id r (dv 4 x.1 ++ dv 4 x.2) b).onUe fun u =>
      { u with state := .done, cmd := none, length := u.cursor, record := none, output := [], decoder := Decoder.empty,
               crc := 0xFFFFFFFF }

/-- Record `x`, whose last piece is entry `e` of slot `i`, is passed: the position advances, the slot is freed or returned,
and the delivery ends (R99, R100). It names the stripe of that slot, also at the end of a pass-through, in which no stripe is
being decoded (R98; DESIGN CHOICE, log entry 126). -/
def State.passRecord (s : State) (i e : Nat) (x : Nat × Nat) (r : Result) (residual : Option Nat) : State :=
  let t := (s.slotAt i).stripe.getD 0
  let p := s.advancedPos i e x.1
  let s1 := s.onMc fun m => { m with dsPos := some p }
  let s2 := if e + 1 < (s.slotAt i).entries then s1.returnSlot else s1.deliveredFree i
  s2.endDelivery x r residual t

/-- A delivery ends with the position kept and its slot returned (R97, R99). -/
def State.failDelivery (s : State) (r : Result) (stripe : Nat) : State :=
  s.returnSlot.endDelivery s.deliveryRecord r none stripe

/-- The whole record has been decoded and every coded byte used. -/
def State.decodedAll (s : State) (d : Delivery) : Bool :=
  d.produced == d.raw && s.ue.decoder.chunk.isNone && s.ue.decoder.input.isEmpty && d.fetched == d.pieceLength
    && (s.entryAt d.slot d.entry).last

/-- With decoding done, the CRC is compared, and with the cursor at L the delivery ends (R98). -/
def State.finishDelivery (s : State) : State :=
  match s.ue.record with
  | none => s
  | some d =>
    if s.decodedAll d && !d.passOver then
      let l := s.ue.length
      if (if d.raw = 0 then 0 else (~~~s.ue.crc).toNat) ≠ (s.entryAt d.slot d.entry).crc then
        s.passRecord d.slot d.entry (d.number, d.raw) .integrityError none
      else if s.ue.cursor = l then
        if d.raw = l then s.passRecord d.slot d.entry (d.number, d.raw) .ok (some 0)
        else if d.raw < l then s.passRecord d.slot d.entry (d.number, d.raw) .shortRecord (some (l - d.raw))
        else s.passRecord d.slot d.entry (d.number, d.raw) .longRecord (some (d.raw - l))
      else s
    else s

/-- The chunk stream fails a check (R60, R99): the record is passed, over its later pieces if it has any. -/
def State.streamError (s : State) (d : Delivery) : State :=
  if (s.entryAt d.slot d.entry).last then s.passRecord d.slot d.entry (d.number, d.raw) .codingError none
  else
    s.onUe fun u =>
      { u with state := .finishing, output := [], length := u.cursor, decoder := Decoder.empty
               record := some { d with passOver := true } }

/-! ### Opening (R94, R95) -/

/-- The position is at end of data (R95): the delivery's result leaves the position, or moves it to the directory's end. -/
def State.openingAtEnd (s : State) : Option (DsPos × DsPos) :=
  match s.mc.dsPos with
  | none => none
  | some p =>
    match s.validDirectory with
    | some d =>
      if d.eodRecord ≤ p.record then some (p, d.endDs)
      else if s.endReached p.stripe then some (p, p) else none
    | none => if s.endReached p.stripe then some (p, p) else none

/-- The slot has become DELIVERING: the entry is looked up and checked (R95). -/
def State.openEntryOf (s : State) (i : Nat) (p : DsPos) : State :=
  let x := s.slotAt i
  let e := p.record - x.firstRecord.getD 0
  let entry := s.entryAt i e
  if decide (p.record < x.firstRecord.getD 0) || !s.entryOk i e || !entry.first then s.failDelivery .codingError p.stripe
  else if entry.filemark then s.passRecord i e (p.record, 0) .filemark none
  else
    let d : Delivery :=
      { number := p.record, raw := entry.raw, stripe := p.stripe, slot := i, entry := e, produced := 0,
        compressed := entry.compressed, pieceAt := s.pieceOffset i e, pieceLength := entry.coded, fetched := 0,
        passOver := false }
    let s1 := s.onUe fun u =>
      { u with state := if u.length = 0 then .finishing else .open_, record := some d, crc := 0xFFFFFFFF,
               decoder := Decoder.empty, output := [] }
    s1.finishDelivery

/-- The READ_FAILED marker of a stripe is met: the first time the delivery ends naming the stripe `at_`, the second time the
marker is freed for a new round (R30, R91). -/
def State.meetMarker (s : State) (i stripe : Nat) (r : Result) (at_ : Nat) : State :=
  match s.tte.markers.find? (·.stripe == stripe) with
  | none => s.failDelivery r at_
  | some m =>
    if m.met then s.newRound i m
    else
      (s.onTte fun t => { t with markers := t.markers.map fun k => if k.stripe == stripe then { k with met := true } else k }).failDelivery r
        at_

/-- OPENING: end of data ends the delivery; the slot carrying the position's stripe is taken when it stands at the bottom of
the read-ahead order; a marker is met (R30, R95). While a motion command moves the position, the record to deliver is not
known and the delivery waits in OPENING (log entry 16). A position in a stripe that a hand-over has freed waits for that
stripe by R30, though R99 has the delivery complete CODING_ERROR again (DESIGN CHOICE, log entry 80). -/
def State.tryOpen (s : State) : State :=
  if s.mc.job.isSome then s else
  match s.openingAtEnd with
  | some (p, q) => (s.onMc fun m => { m with dsPos := some q }).endDelivery (p.record, 0) .endOfData none p.stripe
  | none =>
    match s.mc.dsPos, s.spm.bottom with
    | some p, some (t, i) =>
      if t ≠ p.stripe then s
      else if (s.slotAt i).state = .readFailed then s.meetMarker i t .mediaError t
      else if s.spm.admits .delivering then (s.moveSlot i .readDone .delivering id).openEntryOf i p
      else s
    | _, _ => s

/-! ### The unpack aperture (R96) -/

/-- The outcome of examining an unpack read (R96). -/
inductive UnpackExam where
  | answer (bytes : List Byte)
  | error
  | hold
  deriving DecidableEq, Repr

/-- Examines an unpack read of `w` bytes at an aperture offset (R96). -/
def State.examineUnpack (s : State) (offset w aperture : Nat) : UnpackExam :=
  let u := s.ue
  if u.state = .idle then .hold
  else if offset ≠ u.cursor % aperture then .error
  else if u.length < u.cursor + w then .error
  else if u.state = .opening then .hold
  else
    let all := (u.record.map fun d => d.produced == d.raw).getD false
    if w ≤ u.output.length ∨ all = true then .answer (u.output.take w ++ zeros (w - u.output.length)) else .hold

/-- An unpack read is answered: the cursor advances; at L the state becomes FINISHING, or the delivery ends (R96). -/
def State.unpackTaken (s : State) (w : Nat) : State :=
  let s1 := s.onUe fun u =>
    let cursor := u.cursor + w
    { u with
      cursor := cursor, output := if cursor = u.length then [] else u.output.drop w
      state := if cursor = u.length then .finishing else u.state }
  if s1.ue.cursor = s1.ue.length then s1.finishDelivery else s1

/-! ### Decoding steps and hand-over (R59, R97) -/

/-- The decoder's view of the delivery. -/
def Ue.decoding (u : Ue) (d : Delivery) : Decoding :=
  { decoder := u.decoder, produced := d.produced, output := u.output, crc := u.crc }

/-- The delivery after a run of the decoder. -/
def Ue.decoded (u : Ue) (d : Delivery) (x : Decoding) : Ue :=
  { u with
    decoder := x.decoder, crc := x.crc, output := if u.state = .finishing then [] else x.output
    record := some { d with produced := x.produced } }

/-- The decoder runs ahead (R59, R93). One step decodes until its output buffer is full, its input is used up, the record ends or
a check fails; held reads are examined after it, so that one whose bytes came in the run that finds a CRC mismatch is answered
ERROR (DESIGN CHOICE, log entry 101). Where R is reached at the last coded byte of a piece that is not its record's last, the
record fails with CODING_ERROR at once, without a request for A + 1 (DESIGN CHOICE, log entry 102). -/
def State.decodeRun (s : State) (d : Delivery) : State :=
  let (x, e) := Decoding.run d.raw d.compressed (s.ue.state == .finishing) 1024 (s.ue.decoding d)
  let s1 := s.onUe fun u => u.decoded d x
  let d1 := { d with produced := x.produced }
  let last := (s.entryAt d.slot d.entry).last
  match e with
  | .error => s1.streamError d1
  | .over =>
    if last && d.fetched == d.pieceLength && x.decoder.input.isEmpty then s1.finishDelivery else s1.streamError d1
  | .blocked => if last && d.fetched == d.pieceLength then s1.streamError d1 else s1
  | .paused => s1

/-- The decoder waits for the next stripe (R97). It asks when it is blocked: a token whose operand is the piece's last coded byte
gives all of its output first (DESIGN CHOICE, log entry 111). -/
def State.handoverDue (s : State) : Option Delivery :=
  match s.ue.record with
  | none => none
  | some d =>
    if (s.entryAt d.slot d.entry).last then none
    else if d.passOver then some d
    else if d.fetched = d.pieceLength ∧ (s.ue.decoding d).micro d.raw d.compressed = .blocked then some d
    else none

/-- The hand-over is taken: slot A is freed, slot A + 1 is DELIVERING and its entry 0 is checked (R30, R97). After
a check that fails here the position lies in the stripe just freed, and a repeated delivery waits for it (DESIGN CHOICE, log
entry 80). A pass-through that ends here names the stripe handed to (R98; DESIGN CHOICE, log entry 126). -/
def State.handTo (s : State) (d : Delivery) (j : Nat) : State :=
  let s1 := (s.deliveredFree d.slot).moveSlot j .readDone .delivering id
  let entry := s1.entryAt j 0
  let d1 := { d with stripe := d.stripe + 1, slot := j, entry := 0, pieceAt := Config.headerSize,
                     pieceLength := entry.coded, fetched := 0 }
  let s2 := s1.onUe fun u => { u with record := some d1 }
  if !s1.entryOk j 0 || entry.first || entry.raw != d.raw || entry.compressed != d.compressed then
    s2.failDelivery .codingError d1.stripe
  else if d.passOver && entry.last then s2.passRecord j 0 (d.number, d.raw) .codingError none
  else s2

/-- The hand-over's outcomes (R97), and those of the pass-through of R99, which names the stripe it stands in and not the one
whose chunk check failed (R98; DESIGN CHOICE, log entry 126). -/
def State.tryHandover (s : State) (d : Delivery) : State :=
  let next := d.stripe + 1
  let failed := if d.passOver then d.stripe else next
  if s.endReached next then s.failDelivery (if d.passOver then .codingError else .endOfData) failed
  else
    match s.spm.bottom with
    | some (t, j) =>
      if t ≠ next then s
      else if (s.slotAt j).state = .readFailed then
        s.meetMarker j t (if d.passOver then .codingError else .mediaError) failed
      else s.handTo d j
    | none => s

/-- The delivery is cut off (R101, R102): it ends ABORTED and its slot is freed. With none outstanding the Unpack Engine stays in
IDLE or DONE as it stood (DESIGN CHOICE, log entries 59 and 67). One cut off in OPENING, with no stripe being decoded, names the
stripe of the data-set position (R98; DESIGN CHOICE, log entry 110), one cut off in a pass-through the stripe that it stands in
(DESIGN CHOICE, log entry 126). -/
def State.abortDelivery (s : State) : State :=
  if s.ue.cmd.isSome then
    let stripe := match s.ue.record, s.mc.dsPos with
      | some d, _ => d.stripe
      | none, some p => p.stripe
      | none, none => 0
    ((match s.spm.firstIn .delivering with | some i => s.freeSlot i | none => s).endDelivery s.deliveryRecord .aborted
      none stripe)
  else s

/-- The Unpack Engine's place at the arbiter has bytes to fetch (R179, place 5): it asks while fewer than 64 coded bytes wait
for the decoder (DESIGN CHOICE, log entry 88). -/
def State.unpackWork (s : State) : Option Delivery :=
  match s.ue.record with
  | some d =>
    if !d.passOver && decide (d.fetched < d.pieceLength) && decide (s.ue.decoder.input.length < 64) then some d else none
  | none => none

/-- Up to 64 coded bytes within an aligned block are fetched (R179). -/
def State.fetchCoded (s : State) (d : Delivery) : State :=
  let a := s.slotBase d.slot + d.pieceAt + d.fetched
  let k := min (64 - a % 64) (d.pieceLength - d.fetched)
  s.onUe fun u =>
    { u with decoder := { u.decoder with input := u.decoder.input ++ Memory.readBytes s.dram a k }
             record := some { d with fetched := d.fetched + k } }

end Sys2Proof.Machine
end

