-- ==== Sys2Proof/Machine/Search.lean ====
section
/-! DEFINITION. Motion commands on the tape (chapter 7): moves and their completion, the header search (R125), locate and
space (R126 to R132), the stale recovery (R130). -/

namespace Sys2Proof.Machine

/-! ### Jobs -/

/-- A job just begun. -/
def Job.new (id : Nat) (kind : MotionKind) (stage : JobStage) : Job :=
  { id := id, kind := kind, stage := stage, search := none, finish := none, space := none, byRecord := false,
    aborted := false, stranded := false, saveCode := 0, ciBefore := 0 }

/-- A header search for a goal from a starting point (R125). -/
def Search.new (goal : SearchGoal) (scan : Bool) (start : TapePos) : Search :=
  { goal := goal, scan := scan, attempt := 1, start := start, window := none, blanks := 0, floor := none, last := none,
    need := 0, found := [], cover := 0, expected := 0, held := [], highest := 0, stored := 0, rebuilt := false }

/-- A finish without stated details. -/
def Finish.bare (r : Result) : Finish := { result := r, detailA := noDetail, detailB := noDetail, pos := none }

/-- The data-set position of a rewound tape (R120). -/
def Finish.rewound : Finish :=
  { Finish.bare .ok with
    pos := some { stripe := 0, record := 0, boundary := true, carried := { pass := 0, mark := 0 }, below := false } }

/-- Replaces the motion command in progress. -/
def State.setJob (s : State) (j : Job) : State := s.onMc fun m => { m with job := some j }

/-- The motion command in progress shuttles to a place and finishes there (R120, R129). It keeps its search, for the detail of
R130. -/
def State.goPlace (s : State) (j : Job) (f : Finish) (p : TapePos) : State :=
  (s.setJob { j with stage := .toPlace, finish := some f }).onMc fun m => m.shuttle p

/-- The motion command in progress shuttles to the start of a header search (R126, step 4). -/
def State.goSearch (s : State) (j : Job) (x : Search) : State :=
  (s.setJob { j with stage := .toStart, search := some x }).onMc fun m => m.shuttle x.start

/-- The tape decelerates and the command will finish when it has stopped (R125, R126). -/
def State.stopJob (s : State) (j : Job) (f : Finish) : State :=
  (s.setJob { j with stage := .finishing, finish := some f }).onMc Mc.decelerate

/-- A motion command ends in READY: its position is set, it completes, and read-ahead starts again if the direction is
READ_OPEN (R101, R126). -/
def State.endJob (s : State) (j : Job) (f : Finish) : State :=
  let s1 := s.onMc fun m =>
    { (m.halt .ready).dropMoves with job := none, dsPos := match f.pos with | some p => some p | none => m.dsPos }
  let s2 := s1.complete j.id f.result f.detailA f.detailB
  match s2.spm.direction, s2.mc.dsPos with
  | .readOpen, some p => (s2.formRead p).beginRead
  | _, _ => s2

/-- The read side is cleared as a motion command begins (R101). With no delivery outstanding the Unpack Engine stays in DONE
or IDLE as it stood, as R102 says for CLOSE (DESIGN CHOICE, log entry 59). -/
def State.clearForMove (s : State) : State :=
  if s.spm.direction = .readOpen then s.abortDelivery.clearRead false else s

/-! ### Details and positions -/

/-- Detail A of a LOCATE (R126, R127). -/
def locateDetail (byRecord : Bool) (p : TapePos) (attempt stripe : Nat) : Detail :=
  dv 1 p.pass ++ dv 2 p.mark ++ dv 1 attempt ++ (if byRecord then dv 4 stripe else du 4)

/-- The finish at the directory's end of data (R126, R129). Of a LOCATE that goes there without a header search detail A gives
the pass and the mark of that place; its byte 3, the attempts, and bytes 4 to 7 are not stated (DESIGN CHOICE, log entry
84). -/
def endFinish (d : Directory) (kind : MotionKind) (r : Result) : Finish :=
  { result := r
    detailA := if kind = .locateEod then dv 4 d.eodStripe ++ du 4 else dv 1 d.endPos.pass ++ dv 2 d.endPos.mark ++ du 5
    detailB := noDetail, pos := some d.endDs }

/-- The data-set position at record r of a header found (R126, R127). -/
def headerDs (h : HeaderSeen) (r : Nat) : DsPos :=
  { stripe := h.stripe, record := r, boundary := r == h.first && flagFirst (h.flags.headD 0), carried := h.pos,
    below := false }

/-- The next record after a header (R12, R128). -/
def HeaderSeen.nextRecord (h : HeaderSeen) : Nat :=
  h.first + h.entries - (if flagLast (h.flags.getLastD 0) then 0 else 1)

/-- The end a scan has found (R128); with no valid header read it is where the scan began (log entry 23). -/
def Search.endDs (x : Search) : DsPos :=
  match x.last with
  | some h => { stripe := h.stripe + 1, record := h.nextRecord, boundary := false, carried := h.pos, below := true }
  | none => { stripe := x.expected, record := x.need, boundary := false, carried := x.start, below := true }

/-- The signed count spaced and the rest of the count (R131, R132). -/
def spaceFinish (plan : SpacePlan) (r : Result) (moved : Int) : Finish :=
  { result := r, detailA := dv 4 (int32 moved) ++ du 4
    detailB := dv 4 (plan.count.natAbs - moved.natAbs) ++ du 4, pos := none }

/-! ### Where searches start -/

/-- Where a scan starts: the carried tape position when the target is not behind it, else pass 0, mark 0 (R128). -/
def State.scanStart (s : State) (ahead : DsPos → Bool) : TapePos :=
  match s.mc.dsPos with
  | some p => if ahead p then p.carried else { pass := 0, mark := 0 }
  | none => { pass := 0, mark := 0 }

/-- A search for record r, by the valid directory or by a scan (R127, R128). -/
def State.recordSearch (s : State) (r : Nat) : Search :=
  let here : Nat × Nat := ((s.mc.dsPos.map fun p => (p.stripe, p.record)).getD (0, 0))
  match s.validDirectory with
  | some d => { Search.new (.record r) false (d.recordStart r) with expected := here.1, need := here.2 }
  | none =>
    { Search.new (.record r) true (s.scanStart fun p => decide (p.record ≤ r)) with
      expected := here.1, need := here.2 }

/-- The move goes to record r (R127, R128); at or above a valid end of data it goes there. `f` is the finish of a SPACE. -/
def State.goRecord (s : State) (j : Job) (r : Nat) (f : Option Finish) : State :=
  match s.validDirectory with
  | some d =>
    if d.eodRecord ≤ r then
      let g := endFinish d j.kind (if r = d.eodRecord then .ok else .endOfData)
      s.goPlace j (match f with | some k => { k with pos := some d.endDs } | none => g) d.endPos
    else s.goSearch { j with finish := f } (s.recordSearch r)
  | none => s.goSearch { j with finish := f } (s.recordSearch r)

/-- LOCATE by stripe (R126, R128). -/
def State.goStripe (s : State) (j : Job) (t : Nat) : State :=
  let here : Nat × Nat := ((s.mc.dsPos.map fun p => (p.stripe, p.record)).getD (0, 0))
  match s.validDirectory with
  | some d =>
    if d.eodStripe ≤ t then s.goPlace j (endFinish d .locate (if t = d.eodStripe then .ok else .endOfData)) d.endPos
    else s.goSearch j { Search.new (.stripe t) false (d.stripeStart t) with expected := here.1, need := here.2 }
  | none =>
    s.goSearch j
      { Search.new (.stripe t) true (s.scanStart fun p => decide (p.stripe ≤ t)) with expected := here.1, need := here.2 }

/-- LOCATE_EOD by the directory's condition (R129, R130). The highest generation applied is reckoned from 0 with each LOCATE_EOD
(R145; DESIGN CHOICE, log entry 97). -/
def State.goEnd (s : State) (j : Job) : State :=
  match s.cml.condition, s.cml.directory with
  | .valid, some d => s.goPlace j (endFinish d .locateEod .ok) d.endPos
  | .stale, some d =>
    s.goSearch j
      { Search.new .stale false (d.stripeStart d.eodStripe) with
        expected := d.eodStripe, floor := some d.generation, stored := d.generation }
  | _, _ => s.goSearch j (Search.new .endOfData true { pass := 0, mark := 0 })

/-! ### SPACE (R131, R132) -/

/-- The filemarks of a list that lie in a span. -/
def inSpan (marks : List Nat) (low high : Nat) : List Nat := marks.filter fun r => low ≤ r ∧ r < high

/-- A span of records is decided: its filemarks, lowest first, and the aim give the new record and the result (R131). -/
def State.decideRecords (s : State) (j : Job) (plan : SpacePlan) (aim : Nat) (clamped : Bool) (marks : List Nat) : State :=
  let r := plan.origin
  if 0 < plan.count then
    match marks.head? with
    | some f => s.goRecord j (f + 1) (some (spaceFinish plan .filemark ((f : Int) + 1 - r)))
    | none => s.goRecord j aim (some (spaceFinish plan (if clamped then .endOfData else .ok) ((aim : Int) - r)))
  else
    match marks.getLast? with
    | some f => s.goRecord j f (some (spaceFinish plan .filemark ((f : Int) - r)))
    | none => s.goRecord j aim (some (spaceFinish plan .ok ((aim : Int) - r)))

/-- Filemarks are decided: the new record is the |n|-th, or the end of data, or record 0 (R132). `marks` are those counted,
lowest first. -/
def State.decideMarks (s : State) (j : Job) (plan : SpacePlan) (marks : List Nat) (scanEnd : Option DsPos) : State :=
  let n := plan.count.natAbs
  if 0 < plan.count then
    match marks[n - 1]? with
    | some f => s.goRecord j (f + 1) (some (spaceFinish plan .ok n))
    | none =>
      let f := spaceFinish plan .endOfData marks.length
      match s.validDirectory, scanEnd with
      | some d, _ => s.goPlace j { f with pos := some d.endDs } d.endPos
      | none, some e => s.stopJob j { f with pos := some e }
      | none, none => s.stopJob j f
  else
    match marks.reverse[n - 1]? with
    | some f => s.goRecord j f (some (spaceFinish plan .ok (-(n : Int))))
    | none => s.goRecord j 0 (some (spaceFinish plan .ok (-(marks.length : Int))))

/-- The aim of a space by records, and whether it was clamped at the end of data (R131). -/
def State.spaceAim (s : State) (plan : SpacePlan) : Nat × Bool :=
  let t := (((plan.origin : Int) + plan.count)).toNat
  match s.validDirectory with
  | some d => if 0 < plan.count ∧ d.eodRecord < t then (d.eodRecord, true) else (t, false)
  | none => (t, false)

/-- The complete index of a valid directory (R131, R132). -/
def State.fullIndex (s : State) : Option (List Nat) :=
  match s.validDirectory with
  | some d => if d.complete then some (d.index.map (·.1)) else none
  | none => none

/-- A header search for filemarks of a span (R131, R132). -/
def State.marksSearch (s : State) (low : Nat) (high : Option Nat) (wanted : Nat) (start : TapePos) : Search :=
  { Search.new (.marks low high wanted) s.validDirectory.isNone start with
    cover := low
    expected := ((s.mc.dsPos.map (·.stripe)).getD 0), need := ((s.mc.dsPos.map (·.record)).getD 0) }

/-- SPACE begins (R131, R132); its count is not 0. A forward search for filemarks under a VALID directory is over the records
up to its end of data, beyond which it counts none (DEDUCED, log entry 78). -/
def State.goSpace (s : State) (j0 : Job) (plan : SpacePlan) : State :=
  let j := { j0 with space := some plan }
  let r := plan.origin
  if !plan.filemarks then
    let (t, clamped) := s.spaceAim plan
    let low := if 0 < plan.count then r else t
    let high := if 0 < plan.count then t else r
    match s.fullIndex with
    | some marks => s.decideRecords j plan t clamped (inSpan marks low high)
    | none => s.goSearch j (s.marksSearch low (some high) (if 0 < plan.count then 1 else 0) (s.recordSearch low).start)
  else
    match s.fullIndex with
    | some marks => s.decideMarks j plan (marks.filter fun f => if 0 < plan.count then r ≤ f else f < r) none
    | none =>
      if 0 < plan.count then
        match s.validDirectory with
        | some d =>
          if d.eodRecord ≤ r then s.decideMarks j plan [] none
          else s.goSearch j (s.marksSearch r (some d.eodRecord) plan.count.natAbs (s.scanStart fun _ => true))
        | none => s.goSearch j (s.marksSearch r none plan.count.natAbs (s.scanStart fun _ => true))
      else
        let held := ((s.validDirectory.map (·.index)).getD []).filter fun p => p.1 < r
        match held.getLast?, s.validDirectory with
        | some (f, t), some d => s.goSearch j (s.marksSearch (f + 1) (some r) 0 (d.stripeStart t))
        | _, _ => s.goSearch j (s.marksSearch 0 (some r) 0 { pass := 0, mark := 0 })

/-- A search of a span is over: what it found, with what the index holds, decides the SPACE (R131, R132). -/
def State.spanDone (s : State) (j : Job) (x : Search) (ended : Bool) : State :=
  match j.space with
  | none => s.stopJob j (Finish.bare .locateFailed)
  | some plan =>
    let scanEnd := if ended then some x.endDs else none
    if plan.filemarks then
      let held := if 0 < plan.count then [] else
        (((s.validDirectory.map (·.index)).getD []).map (·.1)).filter fun f => f < plan.origin
      s.decideMarks j plan (held ++ x.found) scanEnd
    else
      let (t, clamped) := s.spaceAim plan
      if ended && decide (0 < plan.count) && x.found.isEmpty then
        s.stopJob j { spaceFinish plan .endOfData ((x.endDs.record : Int) - plan.origin) with pos := some x.endDs }
      else s.decideRecords j plan t clamped x.found

/-! ### Rulings of a header search (R125 to R130) -/

/-- Where the records of a search's goal begin: a span's lowest record (R131). -/
def SearchGoal.low : SearchGoal → Nat
  | .marks low _ _ => low
  | _ => 0

/-- The second attempt of a search: from 60 marks before, window and blank run cleared (R125). What the first attempt read of
the tape is read again: the floor generation, the filemarks found and the headers held start afresh too (DESIGN CHOICE, log
entry 60). -/
def Search.again (x : Search) : Search :=
  { x with attempt := 2, start := x.start.before 60, window := none, blanks := 0, floor := none, found := [],
           cover := x.goal.low, held := [] }

/-- The attempt has overshot: a second attempt from 60 marks before, or LOCATE_FAILED (R125), whose counts a SPACE leaves free
(R131, R132; DESIGN CHOICE, log entry 128). -/
def State.overshoot (s : State) (j : Job) (x : Search) : State :=
  if x.attempt = 1 then
    (s.setJob { j with stage := .toStart, search := some x.again }).onMc fun m => { m.decelerate with resume := true }
  else s.stopJob j (Finish.bare .locateFailed)

/-- The target is found (R126, R127): the command finishes with the position at record r of the header. -/
def State.foundTarget (s : State) (j : Job) (x : Search) (h : HeaderSeen) (r : Nat) : State :=
  let f :=
    match j.finish with
    | some g => { g with pos := some (headerDs h r) }
    | none =>
      { result := .ok, detailA := locateDetail j.byRecord h.pos x.attempt h.stripe, detailB := noDetail,
        pos := some (headerDs h r) }
  s.stopJob j f

/-- End of data is found where a SPACE goes to its new record (R128, R131, R132): the new record is that end, and the SPACE
has its result, or it lies beyond: END_OF_DATA at that end, by filemarks with none passed (DESIGN CHOICE, log entry 95). -/
def spaceEnded (plan : SpacePlan) (x : Search) (f : Finish) : Finish :=
  if x.goal = .record x.endDs.record then { f with pos := some x.endDs }
  else
    { spaceFinish plan .endOfData (if plan.filemarks then 0 else (x.endDs.record : Int) - plan.origin) with
      pos := some x.endDs }

/-- End of data ends a search: overshot with the window open; else by what it looks for (R125, R128, R129, R131, R132). A
search under a VALID directory that finds it with the window closed completes as a scan does, END_OF_DATA at the end found
(DESIGN CHOICE, log entry 70). -/
def State.searchEnded (s : State) (j : Job) (x : Search) : State :=
  if x.window.isSome then s.overshoot j x
  else
    match x.goal with
    | .endOfData => s.stopJob j { Finish.bare .ok with pos := some x.endDs }
    | .marks _ _ _ => s.spanDone j x true
    | _ =>
      match j.finish, j.space with
      | some f, some plan => s.stopJob j (spaceEnded plan x f)
      | _, _ => s.stopJob j { Finish.bare .endOfData with pos := some x.endDs }

/-- The window after a report that does not open it (R125). -/
def countWindow (w : Option Nat) : Option Nat := w.map (· + 1)

/-- The search goes on; a window that has reached 8 is an overshoot (R125). -/
def State.searchOn (s : State) (j : Job) (x : Search) : State :=
  match x.window with
  | some k => if 8 ≤ k then s.overshoot j x else s.setJob { j with search := some x }
  | none => s.setJob { j with search := some x }

/-- A record number put in its place in a rising list without repeats. -/
def insertRecord (r : Nat) : List Nat → List Nat
  | [] => [r]
  | a :: as => if r < a then r :: a :: as else if r = a then a :: as else a :: insertRecord r as

/-- Records covered without a gap once these headers are known, and the headers that still lie above a gap (R131). -/
def coverOver : Nat → Nat → List HeaderSeen → Nat × List HeaderSeen
  | 0, c, hs => (c, hs)
  | n + 1, c, hs =>
    match hs.find? fun h => decide (h.first ≤ c) with
    | some h => coverOver n (max c h.nextRecord) (hs.erase h)
    | none => (c, hs)

/-- A span search takes in a header (R131, R132): its filemarks in record order; a header above a gap is held and opens the
overshoot window, since a rewritten stripe can come after it (log entry 61). -/
def Search.takeIn (x : Search) (h : HeaderSeen) (fresh : List Nat) : Search :=
  let (c, rest) := coverOver (x.held.length + 1) x.cover (h :: x.held)
  { x with
    found := fresh.foldl (fun l r => insertRecord r l) x.found
    cover := c, held := rest
    window :=
      if rest.isEmpty then none
      else if c ≠ x.cover then some 0
      else match x.window with | some k => some (k + 1) | none => some 0 }

/-- Every filemark a span search asks for is known: the span is covered, or enough of them lie below the cover. -/
def Search.spanKnown (x : Search) (high : Option Nat) (wanted : Nat) : Bool :=
  (match high with | some k => decide (k ≤ x.cover) | none => false)
    || (decide (0 < wanted) && decide (wanted ≤ (x.found.filter (· < x.cover)).length))

/-- A valid header that is none of a VALID directory's data set, as old stripes beyond its end are not: one numbered at its
end-of-data stripe or above (DEDUCED, log entry 78). -/
def State.outsideSet (s : State) (h : HeaderSeen) : Bool :=
  (s.validDirectory.map fun d => decide (d.eodStripe ≤ h.stripe)).getD false

/-- A span search under a VALID directory has come to the place of its end of data (DEDUCED, log entry 78). -/
def State.spanPastEnd (s : State) (x : Search) (h : HeaderSeen) : Bool :=
  match x.goal with
  | .marks _ _ _ => (s.validDirectory.map fun d => h.pos.reaches d.endPos).getD false
  | _ => false

/-- A valid header matched against the target (R126, R127, R131). A header whose first record number lies above r opens the
window only: that it also meets R127's other test is no find (DESIGN CHOICE, log entry 62). -/
def State.matchHeader (s : State) (j : Job) (x : Search) (h : HeaderSeen) : State :=
  match x.goal with
  | .stripe t =>
    if h.stripe = t then
      if flagFirst (h.flags.headD 0) then s.foundTarget j x h h.first
      else if 1 < h.entries then s.foundTarget j x h (h.first + 1)
      else s.setJob { j with search := some { x with goal := .record (h.first + 1), window := none } }
    else if t < h.stripe ∧ x.window = none then s.searchOn j { x with window := some 0 }
    else s.searchOn j { x with window := countWindow x.window }
  | .record r =>
    if h.first ≤ r ∧ r < h.first + h.entries then s.foundTarget j x h r
    else if r < h.first ∧ x.window = none then s.searchOn j { x with window := some 0 }
    else s.searchOn j { x with window := countWindow x.window }
  | .marks low high wanted =>
    if s.outsideSet h then s.searchOn j { x with window := countWindow x.window }
    else
      let y := x.takeIn h ((filemarkRecords h.first h.flags).filter fun f =>
        low ≤ f && (match high with | some k => decide (f < k) | none => true))
      if y.spanKnown high wanted then s.spanDone j y false else s.searchOn j y
  | _ => s.setJob { j with search := some x }

/-- A report of a locate, a scan or a span search (R125, R128). A scan's header of a lower generation is the end of data, and
so is a header at a VALID directory's end in a search for filemarks (log entry 78). -/
def State.ruleHeader (s : State) (j : Job) (x : Search) (blank : Bool) (h : Option HeaderSeen) : State :=
  if blank then
    let y := { x with blanks := x.blanks + 1, window := countWindow x.window }
    if 2 ≤ y.blanks then s.searchEnded j y else s.searchOn j y
  else
    match h with
    | none => s.searchOn j { x with blanks := 0, window := countWindow x.window }
    | some k =>
      if (x.scan && (x.floor.map fun g => decide (k.generation < g)).getD false) || s.spanPastEnd x k then
        s.searchEnded j { x with blanks := 0 }
      else
        s.matchHeader j { x with blanks := 0, last := some k, floor := if x.scan then some k.generation else x.floor } k

/-! ### The stale recovery (R130) -/

/-- The stripe a header stands for in the directory (R130). -/
def HeaderSeen.done (h : HeaderSeen) : StripeDone := { stripe := h.stripe, pos := h.pos, first := h.first, flags := h.flags }

/-- Header x is applied, then the held headers that follow it in turn (R130); the window stays only while one is held
(log entry 24). -/
def applyHeld : Nat → State → Search → HeaderSeen → State × Search
  | 0, s, x, _ => (s, x)
  | n + 1, s, x, h =>
    let s1 := s.applyStripe h.done
    let rest := x.held.filter (·.stripe != h.stripe)
    let y := { x with expected := x.expected + 1, floor := some h.generation, highest := max x.highest h.generation,
                      held := rest, window := if rest.isEmpty then none else some 0 }
    match rest.find? (·.stripe == y.expected) with
    | some k => applyHeld n s1 y k
    | none => (s1, y)

/-- Detail A of a stale recovery that does not succeed: byte 4 says whether the directory was rebuilt (R130). -/
def Search.staleDetail (x : Search) : Detail := du 4 ++ dv 1 (if x.rebuilt then 1 else 0) ++ du 3

/-- The stale recovery fails (R130). -/
def Search.staleFinish (x : Search) (r : Result) : Finish := { Finish.bare r with detailA := x.staleDetail }

/-- Detail A of a motion command that an ABORT or a motion fault ends: a stale recovery's says at every stage whether the
directory was rebuilt (R124, R130, R134). A SPACE's counts are free there (R131, R132; DESIGN CHOICE, log entry 128). -/
def Job.cutDetail (j : Job) : Detail :=
  match j.search with
  | some x => if x.goal = .stale then x.staleDetail else noDetail
  | none => noDetail

/-- End of data in the stale recovery: success with nothing held, else LOCATE_FAILED (R130, R145). -/
def State.staleEnded (s : State) (j : Job) (x : Search) : State :=
  if !x.held.isEmpty then s.stopJob j (x.staleFinish .locateFailed)
  else
    let s1 := s.recoverDirectory x.highest
    match s1.cml.directory with
    | none => s1.stopJob j (x.staleFinish .locateFailed)
    | some d =>
      s1.goPlace j
        { result := .ok, detailA := dv 4 d.eodStripe ++ dv 1 (if x.rebuilt then 1 else 0) ++ du 3, detailB := noDetail,
          pos := some d.endDs } d.endPos

/-- The recovery goes on; a window that has reached 8 fails it (R130). -/
def State.staleOn (s : State) (j : Job) (x : Search) : State :=
  match x.window with
  | some k =>
    if 8 ≤ k then s.stopJob j (x.staleFinish .locateFailed) else s.setJob { j with search := some x }
  | none => s.setJob { j with search := some x }

/-- A report of the stale recovery, by the first line that applies (R130). With 8 headers held a further one above x is
passed (log entry 24). After a rebuild the highest generation applied is reckoned from 0 again (R145; DESIGN CHOICE, log entry
75). -/
def State.ruleStale (s : State) (j : Job) (x : Search) (blank : Bool) (h : Option HeaderSeen) : State :=
  if blank then
    let y := { x with blanks := x.blanks + 1, window := countWindow x.window }
    if 2 ≤ y.blanks then s.staleEnded j y else s.staleOn j y
  else
    match h with
    | none => s.staleOn j { x with blanks := 0, window := countWindow x.window }
    | some k =>
      let y := { x with blanks := 0 }
      if x.expected ≤ k.stripe ∧ (x.floor.map fun g => decide (k.generation < g)).getD false then s.staleEnded j y
      else if k.stripe < x.expected ∧ x.stored < k.generation ∧ x.rebuilt = false then
        s.rebuildDirectory.goSearch j
          { Search.new .stale false { pass := 0, mark := 0 } with stored := x.stored, rebuilt := true }
      else if k.stripe < x.expected then s.staleOn j { y with window := countWindow x.window }
      else if k.stripe = x.expected then
        let (s1, z) := applyHeld (x.held.length + 1) s y k
        s1.staleOn j z
      else if x.held.any (·.stripe == k.stripe) || decide (8 ≤ x.held.length) then s.staleOn j { y with window := countWindow x.window }
      else
        s.staleOn j
          { y with held := x.held ++ [k], window := match x.window with | some n => some (n + 1) | none => some 0 }

/-- A header report is ruled (R125). -/
def State.ruleReport (s : State) (j : Job) (x : Search) (blank : Bool) (h : Option HeaderSeen) : State :=
  match x.goal with
  | .stale => s.ruleStale j x blank h
  | _ => s.ruleHeader j x blank h

/-- The search reaches the end of pass 63 (R5, R125). -/
def State.searchAtMediaEnd (s : State) (j : Job) (x : Search) : State :=
  match x.goal with
  | .stale => s.staleEnded j x
  | _ => s.searchEnded j x

end Sys2Proof.Machine
end

