-- ==== Sys2Proof/Machine/Sensor.lean ====
section
/-! DEFINITION. The Sensor Sequencer (chapter 9): sequences, results and halves, plans; the tension loop (R123, R124) and
the thermal guard (R133) that its conversions feed. -/

namespace Sys2Proof.Machine

/-! ### Sequences and plans (R150, R156) -/

/-- The input after `c` in the scan mask, wrapping to the lowest (R150). -/
def nextScan (scan : List Nat) (c : Nat) : Option Nat := (scan.find? fun i => decide (c < i)).or scan.head?

/-- A sequence starts (R150). -/
def Ss.startSequence (x : Ss) : Ss :=
  let onB := x.plan.alternate && x.nextB
  let entries :=
    if onB then x.plan.listB
    else
      match x.cursor with
      | some c => x.plan.listA.dropLast ++ [c]
      | none => x.plan.listA
  { x with
    sequence := some { onB := onB, entries := entries, next := 0, stamp := x.stamp }
    stamp := (x.stamp + 1) % 4294967296
    nextB := if x.plan.alternate then !x.nextB else false
    cursor := if onB then x.cursor else x.cursor.bind (nextScan x.plan.scan) }

/-- A half that is FILLING restarts empty (R156). -/
def Half.restarted (h : Half) : Half := if h.phase = .filling then { h with results := [] } else h

/-- A plan is applied: the sequence in progress is abandoned and the first sequence of the plan starts at once (R156). -/
def Ss.apply (x : Ss) (p : Plan) : Ss :=
  ({ x with
    plan := p, sequence := none, half0 := x.half0.restarted, half1 := x.half1.restarted, nextB := false,
    cursor := p.scan.head?, period := p.period * Config.ticksPerMs } : Ss).startSequence

/-- The default plan is brought in before winding, unless list A begins with 2 and 3 (R157). -/
def State.ensurePair (s : State) : State :=
  if s.ss.plan.listA.take 2 = [2, 3] then s else s.onSs fun x => x.apply Plan.default_

/-! ### Halves and records (R152 to R154) -/

/-- A half by its index. -/
def Ss.half (x : Ss) (i : Nat) : Half := if i = 0 then x.half0 else x.half1

/-- Replaces a half. -/
def Ss.setHalf (x : Ss) (i : Nat) (h : Half) : Ss := if i = 0 then { x with half0 := h } else { x with half1 := h }

/-- The index of the FILLING half. -/
def Ss.fillingHalf (x : Ss) : Nat := if x.half0.phase = .filling then 0 else 1

/-- A record is counted as dropped (R152, R154). -/
def Ss.drop (x : Ss) : Ss := { x with drops := min 255 (x.drops + 1) }

/-- The FILLING half is complete: the other half becomes FILLING, reclaimed if its record still waits (R152), and this one is
formed into a record or dropped at the full test (R153, R154). -/
def State.halfComplete (s : State) (i : Nat) : State :=
  let o := 1 - i
  let reclaim := (s.ss.half o).phase == .awaitCopy
  let s1 := s.onSs fun x =>
    let y := if reclaim then x.drop else x
    (y.setHalf o { phase := .filling, results := [] }).setHalf i { x.half i with phase := .awaitCopy }
  let s2 := if reclaim then
      s1.onBpu fun b => { b with ring := b.ring.filter fun r => match r with | .sensor h _ => h != o | _ => true }
    else s1
  if s2.sensorFull then s2.onSs fun x => (x.drop).setHalf i { phase := .empty, results := [] }
  else s2.askRing (.sensor i (sensorRecord s2.ss.plan i s2.ss.drops (s2.ss.half i).results))

/-- A result enters the FILLING half (R152). -/
def State.addResult (s : State) (r : SensorResult) : State :=
  let i := s.ss.fillingHalf
  let s1 := s.onSs fun x => x.setHalf i { x.half i with results := (x.half i).results ++ [r] }
  if s.ss.plan.batch ≤ (s1.ss.half i).results.length then s1.halfComplete i else s1

/-- A sensor record is written: the tail advances, the drop count returns to 0, its half becomes EMPTY (R154). With no
SENSOR region left it is dropped (log entry 25). -/
def State.writeSensor (s : State) (i : Nat) (bytes : List Byte) : State :=
  let n := s.ringSlots .sensor 32
  if n = 0 then s.onSs fun x => (x.drop).setHalf i { phase := .empty, results := [] }
  else
    let s1 := s.onDram fun m => Memory.writeBytes m (s.ringAddr .sensor 32 s.ss.tail) bytes
    s1.onSs fun x =>
      { (x.setHalf i { phase := .empty, results := [] }) with tail := (x.tail + 1) % n, drops := 0 }

/-! ### Tension (R123, R124) -/

/-- A torque command after a sample (R123). -/
def nextTorque (torque measured : Nat) : Nat :=
  let error : Int := 2048 - (measured : Int)
  let change := max (-64) (min 64 (Int.tdiv (error * 96) 256))
  (max 0 (min 4095 ((torque : Int) + change))).toNat

/-- Within the ±10% band of threading (R123). -/
def nearTarget (v : Nat) : Bool := decide (1844 ≤ v) && decide (v ≤ 2252)

/-- Within the ±25% band (R123, R124). -/
def inBand (v : Nat) : Bool := decide (1536 ≤ v) && decide (v ≤ 2560)

/-- A tension sample: torques, the tension-up run and the tension-fault count (R123, R124). -/
def Mc.sample (m : Mc) (a b : Nat) : Mc :=
  if m.loopOn then
    { m with
      torqueA := nextTorque m.torqueA a, torqueB := nextTorque m.torqueB b
      tensionUpRun :=
        if m.tensionUp then m.tensionUpRun
        else if nearTarget a && nearTarget b then min 16 (m.tensionUpRun + 1) else 0
      tensionFaults :=
        if m.tensionUp then (if inBand a && inBand b then 0 else min 40 (m.tensionFaults + 1)) else m.tensionFaults }
  else m

/-- A reel's loop starts (R123). -/
def Mc.startLoop (m : Mc) : Mc :=
  { m with loopOn := true, torqueA := 1024, torqueB := 1024, tensionUpRun := 0, tensionUp := false }

/-! ### Thermal guard (R133) -/

/-- The pause holds streaming: an ARMED stripe ends by channel end with no byte sent (R66); a reception is abandoned and the
tape stops ready to meet its position again (R87). -/
def State.pauseStreaming (s : State) : State :=
  let s1 :=
    match s.tte.inFlight with
    | some f => if f.transfer then s else s.returnInFlight
    | none => s
  if s1.spm.direction = .readOpen ∧ s1.mc.state = .streaming ∧ s1.mc.slowing = false then
    (s1.abandonReception.onMc Mc.decelerate).onRg fun r => r.await .none .asked
  else s1

/-- Read-ahead stands in READY with end of data not found: a start after a thermal resume begins the run length at 0 (R114).
A pause and a resume that both fall within a retry's reposition leave the count to go on, as R110 has it of a retry; where the
resume finds the retry waiting in READY the count begins at 0 (DESIGN CHOICE, log entry 83). -/
def State.readStands (s : State) : Bool :=
  s.mc.state == .ready && (s.tte.read.map fun r => r.eod.isNone).getD false

/-- A conversion of the head temperature (R133); the resume asks for a start (R114). Where reading waits at a BACKPRESSURE stop,
which R112 has wait for the FREE count to reach R, that start too is made at once with one FREE slot, and takes the penalty of the
stop (R113; DESIGN CHOICE, log entry 120). -/
def State.thermal (s : State) (raw : Nat) : State :=
  match s.mc.thermal with
  | .normal =>
    if 2880 < raw then
      ((s.onMc fun m => { m with thermal := .paused }).note .thermalPause (dv 2 raw ++ du 6) noDetail).pauseStreaming
    else s
  | .paused =>
    if raw < 2720 then
      let s1 := (s.onMc fun m => { m with thermal := .normal }).note .thermalResume noDetail noDetail
      if s1.spm.direction = .readOpen then
        s1.onRg fun r => { r with readStart := r.readStart.ask, newRun := r.newRun || s1.readStands }
      else s1
    else s

/-! ### A conversion (R151, R152) -/

/-- The tension sample of a sequence's first two entries, when they are inputs 2 and 3 (R151). -/
def tensionPair (q : Sequence) : Bool := q.next == 1 && (q.entries.take 2 == [2, 3] || q.entries.take 2 == [3, 2])

/-- A conversion of the sequence in progress ends (R151, R152). -/
def State.converted (s : State) (q : Sequence) (raw : Nat) : State :=
  let input := q.entries.getD q.next 0
  let s1 := s.onSs fun x =>
    { x with
      latest := x.latest.set input (some (raw, q.stamp))
      sequence := if q.next + 1 < q.entries.length then some { q with next := q.next + 1 } else none }
  let arm (i : Nat) : Nat := ((s1.ss.latest.getD i none).map (·.1)).getD 0
  let s2 := if tensionPair q then s1.onMc fun m => m.sample (arm 2) (arm 3) else s1
  let s3 := if input = 8 then s2.thermal raw else s2
  s3.addResult { input := input, raw := raw, onB := q.onB, entry := q.next, stamp := q.stamp }

end Sys2Proof.Machine
end

