-- ==== Sys2Proof/Machine/Thread.lean ====
section
/-! DEFINITION. Threading and unthreading, entry into FAULT, the slow recovery, the cleaning run's stages
(R117 to R119, R124, R168, R169). -/

namespace Sys2Proof.Machine

/-- A reading as the MOTION_FAULT note gives it (R124); a missing one is not stated. -/
def State.armDetail (s : State) (i : Nat) : Detail :=
  match s.ss.latest.getD i none with
  | some (v, _) => dv 2 v
  | none => du 2

/-- The MOTION_FAULT note (R124). -/
def State.faultNote (s : State) (cause : Nat) : State :=
  s.note .motionFault (dv 1 cause ++ s.armDetail 2 ++ s.armDetail 3 ++ du 3)
    (match s.mc.pos with | some p => dv 1 p.pass ++ dv 2 p.mark ++ du 5 | none => noDetail)

/-- The motors are braked: FAULT, the tension loop off (R124). -/
def Mc.brake (m : Mc) : Mc :=
  { (m.halt .fault).dropMoves with loopOn := false, tensionUp := false, thread := none, recovery := none, job := none }

/-- Entry into FAULT (R124): work in flight ends, the motion command in progress completes, the note is posted, in this order
(DESIGN CHOICE, log entry 125). The ordered save of an UNLOAD that ends so runs on (DESIGN CHOICE, log entry 123). -/
def State.enterFault (s : State) (cause : Nat) (r : Result) (detailB : Detail) : State :=
  let s1 := (s.onMc Mc.brake).onHm fun h => { h with cleaning := .none }
  let s2 := s1.cutWriting.abandonReception
  let s3 := s2.onRg fun g => g.await .none .threshold
  let s4 :=
    match s.mc.job with
    | some j => s3.complete j.id r j.cutDetail detailB
    | none => s3
  s4.faultNote cause

/-- The slow recovery ends in vain: braked again, back to FAULT or STRANDED (R119). For want of tension it posts no note (log
entry 38); a tension fault does (R124). -/
def State.failRecovery (s : State) (j : Job) : State :=
  let s1 := s.onMc fun m => { m.brake with state := if j.stranded then .stranded else .fault }
  s1.completeBare j.id .motionFault

/-- A threading attempt begins (R117, R123), and with it the winding of the leader: the loop starts (DESIGN CHOICE, log entry
96). The travel direction shown is STOPPED until servo lock (DESIGN CHOICE, log entry 115). -/
def Mc.attempt (m : Mc) (n : Nat) (kind : CartKind) : Mc :=
  { m.startLoop with
    state := .threading, thread := some { attempt := n, kind := kind, timer := Config.threadTicks } }

/-- PRESENT is left for THREADING (R117, R157). -/
def State.beginThreading (s : State) (kind : CartKind) : State :=
  let s1 := s.ensurePair.onMc fun m => m.attempt 1 kind
  let s2 := match s1.mc.job with | some j => s1.setJob { j with stage := .threading } | none => s1
  if kind = .cleaning then s2.onHm fun h => { h with cleaning := .thread } else s2

/-- A threading attempt fails: a second one, or THREAD_FAILED with the leader home or out (R117); `why` is detail B byte 0. -/
def State.attemptFailed (s : State) (t : Thread) (tapeInPath : Bool) (why : Nat) : State :=
  if t.attempt = 1 then s.onMc fun m => m.attempt 2 t.kind
  else
    let b := dv 1 why ++ du 7
    let s1 := s.onPins fun p => { p with tapeInPath := tapeInPath }
    if tapeInPath then s1.enterFault 2 .threadFailed b
    else
      let s2 := (s1.onMc fun m => { m.halt .present with loopOn := false, tensionUp := false, thread := none, job := none,
                                                         tensionUpRun := 0 }).onHm fun h => { h with cleaning := .none }
      match s.mc.job with
      | some j => s2.complete j.id .threadFailed noDetail b
      | none => s2

/-- The load count rises when a DATA cartridge reaches READY (R140). -/
def State.raiseLoads (s : State) : State :=
  s.onCml fun c =>
    if c.condition = .absent then c
    else
      match c.counters with
      | some k =>
        { c with counters := some { k with loads := min 4294967295 (k.loads + 1) }, dirty := { c.dirty with counters := true } }
      | none => c

/-- A data cartridge is threaded: READY at pass 0, mark 0 (R117). The runs of the mark timer are set to 0 with the fault counts
(DESIGN CHOICE, log entry 122). -/
def State.threaded (s : State) : State :=
  let zero : TapePos := { pass := 0, mark := 0 }
  let s1 := s.onMc fun m =>
    { m.halt .ready with
      pos := some zero, dsPos := some { stripe := 0, record := 0, boundary := true, carried := zero, below := false }
      speedFaults := 0, tensionFaults := 0, offRun := 0, inRun := 0, thread := none, job := none, targets := passTargets 0 }
  let s2 := (s1.onPins fun p => { p with tapeInPath := true }).raiseLoads
  match s.mc.job with
  | some j =>
    s2.complete j.id .ok (dv 1 s2.cml.condition.code ++ dv 1 (if s2.pins.writeProtect then 1 else 0) ++ du 6) noDetail
  | none => s2

/-- The tape is unthreaded: UNTHREADING (R115, R118), the loop on until the leader is home with UNTHREAD_DONE (DESIGN CHOICE, log
entry 96), the travel direction shown as STOPPED (DESIGN CHOICE, log entry 115). -/
def State.beginUnthread (s : State) : State :=
  let s1 := s.onMc fun m => { m.halt .unthreading with targets := [], tensionUp := false, recovery := none, loopOn := true }
  match s1.mc.job with
  | some j => s1.setJob { j with stage := .unthreading }
  | none => s1

/-- A cleaning cartridge is threaded: the run to mark 3,000 at level 0 (R168), or after a controller reset it is unthreaded
(R134). The runs of the mark timer are set to 0 with the fault counts (DESIGN CHOICE, log entry 122). -/
def State.threadedCleaning (s : State) : State :=
  let s1 := (s.onPins fun p => { p with tapeInPath := true }).onMc fun m =>
    { m.halt .cleaning with pos := some { pass := 0, mark := 0 }, speedFaults := 0, tensionFaults := 0, offRun := 0, inRun := 0,
                            thread := none }
  match s.mc.job with
  | some j =>
    let s2 := (s1.setJob { j with stage := .cleanRun }).onHm fun h => { h with cleaning := .run }
    s2.onMc fun m =>
      ({ m with travel := .forward, speed := Config.levelSpeed 0, targets := passTargets 0 } : Mc).load 3000 .locateStop
  | none => s1.beginUnthread

/-- A completed cleaning run resets the index (R168, stage 6): state GOOD with R164's effects, the accumulator 0. -/
def State.cleaned (s : State) : State :=
  let s1 := s.onHm fun h => { h with ci := 0, wear := 0, waiting := 0, cleaning := .none }
  s1.enterHealth .good 0

/-- The cartridge is ejected: PRESENT, positions absent; the command that asked completes (R118, R119, R168). -/
def State.ejected (s : State) : State :=
  let s1 := (s.onMc fun m =>
    { m.halt .present with loopOn := false, tensionUp := false, tensionUpRun := 0, pos := none, dsPos := none, targets := [],
                           job := none }).onPins fun p => { p with tapeInPath := false }
  match s.mc.job with
  | none => s1.onHm fun h => { h with cleaning := .none }
  | some j =>
    if j.kind = .load then
      let s2 := s1.cleaned
      s2.complete j.id .cleaned (dv 2 ((s2.cml.counters.map (·.uses)).getD 0) ++ dv 2 j.ciBefore ++ du 4) noDetail
    else
      s1.complete j.id .ok
        (if j.saveCode = 4 then dv 1 1 ++ dv 1 2 ++ du 6 else dv 1 0 ++ dv 1 j.saveCode ++ du 6) noDetail

/-- UNLOAD begins its slow recovery (R119); its save code 4 stands for it. -/
def State.beginRecovery (s : State) (j : Job) : State :=
  s.onMc fun m =>
    { m.startLoop with
      recovery := some Config.threadTicks, tensionFaults := 0
      job := some { j with stage := .recoverTension, saveCode := 4, stranded := m.state == .stranded } }

end Sys2Proof.Machine
end

