-- ==== Sys2Proof/Machine/Link.lean ====
section
/-! DEFINITION. The Cartridge Memory Link (chapter 8): its four operations (R136), their transactions (R135) and what each
ending leaves (R139, R141, R146, R147), with LOAD's and OPEN_WRITE's next steps. -/

namespace Sys2Proof.Machine

/-! ### Pages -/

/-- The counters as the counter write will leave them (R140, R168). -/
def Counters.spent (c : Counters) : Counters := { loads := min 4294967295 (c.loads + 1), uses := c.uses - 1 }

/-- The 64 bytes of a page as an operation sends them (R137, R140, R141, R146). -/
def State.pageBytes (s : State) (kind : LinkKind) (k : Nat) : List Byte :=
  let c := s.cml
  if k = 0 then (c.identity.map identityPage).getD (zeros 64)
  else if k = 1 then
    match c.counters, kind with
    | some n, .counters => countersPage n.spent
    | some n, _ => countersPage n
    | none, _ => zeros 64
  else
    match c.directory with
    | none => zeros 64
    | some d =>
      if k = 2 then headerPage (kind == .save) d
      else if k < 212 then ((passTableBytes d).drop (64 * (k - 4))).take 64
      else indexPage d (k - 212)

/-- A page is programmed (R135). -/
def State.program (s : State) (kind : LinkKind) (k : Nat) : State :=
  s.onCartridge fun m => Memory.writeBytes m (64 * k) (s.pageBytes kind k)

/-- A sorted list of pages without repeats (R146). -/
def sortPages (l : List Nat) : List Nat := (List.range 512).filter fun k => l.contains k

/-- The pages of the ordered save (R146). The mark of the index as a whole names no page of its own (R142; log entry 55). -/
def Cml.savePages (c : Cml) : List Nat :=
  let pages := (if c.dirty.identity then [0] else []) ++ (if c.dirty.counters then [1] else [])
  match c.condition with
  | .valid =>
    sortPages (c.dirty.passes.flatMap passPages) ++ sortPages (c.dirty.index.map (212 + ·)) ++ pages
      ++ (if c.dirty.header || c.recorded != .valid then [2] else [])
  | .stale => pages
  | .absent => []

/-- The area of a page, as DIRECTORY_NOT_SAVED gives it (R147). -/
def pageArea (k : Nat) : Nat :=
  if k = 0 then 3 else if k = 1 then 4 else if k = 2 then 5 else if k < 212 then 1 else 2

/-- An operation begins (R136). -/
def State.beginLink (s : State) (kind : LinkKind) (steps : List Transaction) : State :=
  s.onCml fun c =>
    { c with op := some { kind := kind, steps := steps, retries := 0, wait := none, got := [], aborted := false } }

/-! ### Load read (R139) -/

/-- The index blocks of a load read for this many pairs (R139). -/
def indexBlocks (n : Nat) : List Transaction :=
  (List.range ((8 * n + 255) / 256)).map fun k => .read (13568 + 256 * k) (min 256 (8 * n - 256 * k))

/-- The reads that follow a usable header (R139). -/
def directoryBlocks (n : Nat) : List Transaction :=
  (List.range 52).map (fun k => Transaction.read (256 + 256 * k) 256) ++ indexBlocks n

/-- The header page is usable (R139). -/
def headerUsable (h : List Byte) : Bool :=
  decide (fieldAt h 0 1 ≤ 1) && decide (fieldAt h 1 1 ≤ 1) && decide (fieldAt h 4 4 ≤ 640000)
    && decide (fieldAt h 12 2 ≤ Config.maxFilemarks) && ((h.take 64).drop 14).all (· == 0)

/-- The directory read from the header page, the pass table and the index (R137). -/
def directoryOf (h table index : List Byte) : Directory :=
  { generation := fieldAt h 2 2, eodStripe := fieldAt h 4 4, eodRecord := fieldAt h 8 4, complete := fieldAt h 1 1 == 1
    passes := (List.range 64).map fun p => passEntryOf ((table.drop (208 * p)).take 208)
    index := (List.range (fieldAt h 12 2)).map fun i => (fieldAt index (8 * i) 4, fieldAt index (8 * i + 4) 4) }

/-- The copies the load read's first block forms (R139); the identity mark is set where input and echo differ. -/
def Cml.readFirst (c : Cml) (b : List Byte) (input : Bool) : Cml :=
  if b.length < 192 then { c with dirty := Dirty.clean }
  else
    { c with
      identity := some
        { kind := fieldAt b 0 1, echo := fieldAt b 1 1, input := input, serial := (b.drop 2).take 32 }
      counters := some { loads := fieldAt b 64 4, uses := fieldAt b 68 2 }
      dirty := { Dirty.clean with identity := fieldAt b 1 1 != (if input then 1 else 0) } }

/-- The load read ends without a directory (R139). Of the recorded flag after a kind or a header that gives none the spec says
nothing: UNKNOWN, as after a failed transaction (DESIGN CHOICE, log entry 72). -/
def Cml.noDirectory (c : Cml) (kind : CartKind) (recorded : Recorded) : Cml :=
  { c with condition := .absent, directory := none, kind := kind, recorded := recorded, op := none }

/-- The load read ends with everything read (R139). -/
def Cml.fullRead (c : Cml) (b : List Byte) : Cml :=
  let h := (b.drop 128).take 64
  let valid := fieldAt h 0 1 == 1
  { c with
    condition := if valid then .valid else .stale
    recorded := if valid then .valid else .notValid
    kind := .data, directory := some (directoryOf h ((b.drop 192).take 13312) (b.drop 13504)), op := none }

/-! ### What follows an operation -/

/-- A LOAD goes on from the load read (R117, R168). -/
def State.afterLoadRead (s : State) : State :=
  match s.mc.job with
  | none => s
  | some j =>
    match s.cml.kind with
    | .data => s.beginThreading .data
    | .cleaning =>
      let uses := (s.cml.counters.map (·.uses)).getD 0
      if uses = 0 then
        ((s.onMc fun m => { m with job := none }).onHm fun h => { h with cleaning := .none }).complete j.id .cleaningExpired
          (dv 2 0 ++ du 6) noDetail
      else
        let s1 := (s.setJob { j with stage := .counters, ciBefore := s.hm.ci }).onHm fun h => { h with cleaning := .counters }
        s1.beginLink .counters [.write 1]

/-- The counter write ends (R140, R168). -/
def State.afterCounters (s : State) (ok : Bool) : State :=
  let s1 := s.onCml fun c => { c with op := none, counters := if ok then c.counters.map Counters.spent else c.counters }
  if ok then s1.beginThreading .cleaning
  else
    match s1.mc.job with
    | none => s1
    | some j =>
      ((s1.onMc fun m => { m with job := none }).onHm fun h => { h with cleaning := .none }).completeBare j.id
        .cartridgeMemoryError

/-- An UNLOAD whose save waits for the link (R118, R136); one from FAULT or STRANDED asks none (R119). -/
def State.saveWaits (s : State) : Bool :=
  match s.mc.job with
  | some j => j.kind == .unload && (j.stage == .intake || j.stage == .emptying)
  | none => false

/-- The invalidation write ends (R63, R136, R141). -/
def State.afterInvalidate (s : State) (id : Nat) (aborted ok : Bool) : State :=
  let s1 := s.onCml fun c => { c with op := none, recorded := if ok then .notValid else .unknown }
  if aborted || s1.saveWaits then s1.completeBare id .aborted
  else if !ok then s1.completeBare id .cartridgeMemoryError
  else
    match s1.openWriteCheck with
    | some r => s1.completeBare id r
    | none => s1.openSession id

/-- The save is over and the UNLOAD that waits for it goes on to its rewind with this code (R118, R147). A save whose UNLOAD a
motion fault has ended runs on to here all the same (R118, R148; DESIGN CHOICE, log entry 123) and moves no later command on:
the slow recovery of another UNLOAD makes no use of it (R119). -/
def State.afterSave (s : State) (code : Nat) : State :=
  match s.mc.job with
  | some j => if j.kind = .unload ∧ j.stage = .saving then s.setJob { j with stage := .rewinding, saveCode := code } else s
  | none => s

/-- Every page of the save is written, or there is none to write (R147). -/
def State.saved (s : State) : State :=
  match s.cml.condition with
  | .valid => (s.onCml fun c => { c with op := none, dirty := Dirty.clean, recorded := .valid }).afterSave 0
  | .stale =>
    (s.onCml fun c =>
      { c with op := none, dirty := { c.dirty with identity := false, counters := false }, recorded := .notValid }).afterSave 3
  | .absent => (s.onCml fun c => { c with op := none, recorded := .unknown }).afterSave 2

/-- A page of the save failed (R147). -/
def State.saveFailed (s : State) (page : Nat) : State :=
  let d := s.cml.directory
  let s1 := s.onCml fun c => { c with op := none, recorded := if page = 2 then .unknown else c.recorded }
  (s1.note .directoryNotSaved (dv 1 (pageArea page) ++ dv 2 page ++ du 5)
    (dv 4 ((d.map (·.eodStripe)).getD 0) ++ dv 2 ((d.map (·.generation)).getD 0) ++ du 2)).afterSave 1

/-- The ordered save begins (R146). -/
def State.beginSave (s : State) : State :=
  match s.cml.savePages with
  | [] => s.saved
  | pages => s.beginLink .save (pages.map Transaction.write)

/-! ### Transactions (R135) -/

/-- The operation's last transaction has succeeded. -/
def State.linkDone (s : State) (op : LinkOp) : State :=
  match op.kind with
  | .loadRead => (s.onCml fun c => c.fullRead op.got).afterLoadRead
  | .invalidate id => s.afterInvalidate id op.aborted true
  | .counters => s.afterCounters true
  | .save => s.saved

/-- The operation ends failed at a transaction (R135, R136). -/
def State.linkFailed (s : State) (op : LinkOp) (t : Transaction) : State :=
  match op.kind with
  | .loadRead =>
    (s.onCml fun c => (c.readFirst op.got s.pins.writeProtect).noDirectory .data .unknown).afterLoadRead
  | .invalidate id => s.afterInvalidate id op.aborted false
  | .counters => s.afterCounters false
  | .save => s.saveFailed (match t with | .write k => k | .read _ _ => 2)

/-- A transaction succeeds: a read's bytes are taken, a page is programmed, and the operation goes on (R135, R139). -/
def State.linkAck (s : State) (op : LinkOp) (t : Transaction) (rest : List Transaction) : State :=
  let got := match t with
    | .read a n => op.got ++ Memory.readBytes s.cartridge a n
    | .write _ => op.got
  let s1 := match t with
    | .read _ _ => s
    | .write k => s.program op.kind k
  let next : LinkOp := { op with steps := rest, retries := 0, got := got }
  if op.kind = .loadRead ∧ op.got = [] then
    let s2 := s1.onCml fun c => c.readFirst got s.pins.writeProtect
    let h := (got.drop 128).take 64
    let kind := fieldAt got 0 1
    if kind = 2 then (s2.onCml fun c => c.noDirectory .cleaning .unknown).afterLoadRead
    else if kind = 1 ∧ headerUsable h = true then
      s2.onCml fun c => { c with op := some { next with steps := directoryBlocks (fieldAt h 12 2) } }
    else (s2.onCml fun c => c.noDirectory .data .unknown).afterLoadRead
  else if rest.isEmpty then s1.linkDone next
  else s1.onCml fun c => { c with op := some next }

/-- A transaction meets a no-acknowledge: three repetitions after 5 ms each, then the operation fails (R135). -/
def State.linkNoAck (s : State) (op : LinkOp) (t : Transaction) : State :=
  if op.retries < 3 then
    s.onCml fun c => { c with op := some { op with retries := op.retries + 1, wait := some Config.retryWaitTicks } }
  else s.linkFailed op t

/-- The outcome of the transaction in progress (R135): a page whose stop condition was sent is programmed. -/
def State.linkOutcome (s : State) (op : LinkOp) (t : Transaction) (rest : List Transaction) : LinkOutcome → State
  | .ack => s.linkAck op t rest
  | .noAck => s.linkNoAck op t
  | .noAckAfterStop =>
    (match t with | .write k => s.program op.kind k | .read _ _ => s).linkNoAck op t

/-- A controller reset abandons the operation in flight (R148): a page write in progress is programmed or not by a free
value (log entry 5); after a load read the condition is ABSENT, the recorded flag and the dirty marks are kept (R138). -/
def State.cutLink (s : State) : State :=
  match s.cml.op with
  | none => s
  | some op =>
    let s1 :=
      match op.steps, op.wait with
      | .write k :: _, none =>
        let t := if bitOf (Config.freeByte s.free) 0 then s.program op.kind k else s
        { t with free := s.free + 1 }
      | _, _ => s
    s1.onCml fun c =>
      match op.kind with
      | .loadRead => c.noDirectory c.kind c.recorded
      | .invalidate _ => { c with op := none, recorded := .unknown }
      | .counters => { c with op := none }
      | .save =>
        { c with op := none, recorded := match op.steps with | .write 2 :: _ => .unknown | _ => c.recorded }

end Sys2Proof.Machine
end

