-- ==== Sys2Proof/Machine/Reset.lean ====
section
/-! DEFINITION. The controller reset (R181 and the reset tables of every chapter). -/

namespace Sys2Proof.Machine

/-- An upstream access waiting at the arbiter, if the request is one. -/
def UpReq.access? : UpReq → Option Access
  | .access a => some a
  | .line _ _ => none

/-- Step 1 of R181: every access not yet answered is answered ERROR. -/
def State.answerAllError (s : State) : State :=
  (s.bpu.held.map (·.access) ++ s.bpu.upstream.filterMap UpReq.access?).foldl State.answerError s

/-- Step 2 of R181: the posted lines are written to DRAM, oldest first. -/
def State.drainLines (s : State) : State :=
  s.onDram fun m => s.bpu.upstream.foldl (fun d r =>
    match r with
    | .line block bytes => Memory.writeMarked d block bytes
    | .access _ => d) m

/-- The Motion Controller after a controller reset (R134; log entry 26). -/
def Mc.controllerReset (m : Mc) : Mc :=
  let n := { m with
    speedFaults := 0, tensionFaults := 0, offRun := 0, inRun := 0, thermal := .normal, job := none, recovery := none
    targets := (m.pos.map fun (p : TapePos) => passTargets p.pass).getD [] }
  match m.state with
  | .threading => n.halt .threading
  | .unthreading => { n.halt .unthreading with tensionUpRun := 0, thread := none }
  | .cleaning => { n.halt .present with loopOn := false, tensionUp := false, tensionUpRun := 0, thread := none }
  | .empty => { n.halt .empty with tensionUpRun := 0, thread := none }
  | .present => { n.halt .present with tensionUpRun := 0, thread := none }
  | .fault => { n.halt .fault with loopOn := false, tensionUp := false, tensionUpRun := 0, thread := none }
  | .stranded => { n.halt .stranded with loopOn := false, tensionUp := false, tensionUpRun := 0, thread := none }
  | _ => { n.halt .ready with tensionUpRun := 0, thread := none }

/-- A controller reset (R181): unanswered accesses are answered ERROR, posted lines are written, the region table is cleared,
and every block takes its controller-reset values. The data-set position is kept as it was set last: in a write session the
boundary it was opened at (R82, R134; DESIGN CHOICE, log entry 91). -/
def State.controllerReset (s : State) : State :=
  let s1 := s.answerAllError.drainLines.cutLink
  let s2 := s1.onBpu fun b =>
    { b with
      effective := clearedTable, upstream := [], held := []
      starve := Starve.zero, rewrites := 17, ring := resetRing }
  let s3 := (s2.onCi fun c => Ci.reset c.nextId).onCw fun c => Cw.reset c.shown
  let s4 := s3.onPe fun p => Pe.reset p.compression
  let s5 := s4.onSpm fun m =>
    { m with slots := [], direction := .none, sealTimer := none, sealing := none, clearing := false, dropFrom := none }
  let s6 := (s5.onTte fun _ => Tte.reset).onUe fun _ => Ue.reset
  let s7 := s6.onRg fun r => { r.leave with f := 0 }
  let s8 := if s7.mc.state = .cleaning then s7.onPins fun p => { p with tapeInPath := false } else s7
  let s9 := (s8.onMc Mc.controllerReset).onSs fun x => Ss.reset x.latest
  let s10 := s9.onHm fun h => { h with cleaning := .none }
  s10.judgeAttn

end Sys2Proof.Machine
end

