-- ==== Sys2Proof/Machine/Intake.lean ====
section
/-! DEFINITION. The Command Intake (chapter 12): taking a command, the three groups and their queues (R184), acceptance
(R185) and each command's dispatch, ABORT (R186). -/

namespace Sys2Proof.Machine

/-- A command taken, by its number. -/
def State.taken (s : State) (id : Nat) : Option Taken := s.ci.outstanding.find? (·.id == id)

/-- A barriered command may go only when it is the oldest outstanding one (R184; log entry 15). -/
def State.barrierClear (s : State) (t : Taken) : Bool :=
  !t.barrier || (s.ci.outstanding.head?.map (·.id)) == some t.id

/-- The slot spells no command that can run (R182). -/
def Taken.spoiled (t : Taken) : Bool :=
  t.malformed || (match t.cmd with | .unknown _ => true | _ => false)

/-! ### Configuration commands (R24, R32, R45, R155, R166, R167, R170) -/

/-- SET_POOL (R32). Detail A holds N and detail B the whole MiB, each over its eight bytes (log entry 53). -/
def State.runSetPool (s : State) (id n : Nat) : State :=
  let whole := ((s.region .pool).map fun d => d.pages / 256).getD 0
  if s.spm.direction ≠ .none ∨ s.tte.loopback.isSome = true then s.completeBare id .refusedState
  else if n < 8 ∨ 384 < n ∨ whole < n then s.completeBare id .refusedArgument
  else
    (s.onSpm fun m => { m with slots := List.replicate n Slot.empty }).complete id .ok (dv 8 n) (dv 8 whole)

/-- SET_COMPRESSION (R45). -/
def State.runSetCompression (s : State) (id setting : Nat) : State :=
  if 1 < setting then s.completeBare id .refusedArgument
  else
    (s.onPe fun p => { p with compression := setting == 1 }).complete id .ok (dv 1 setting ++ du 7) noDetail

/-- SET_SEAL_INTERVAL (R24): the timer restarts while a FILLING slot exists, its sealing writes under way or not. Detail A carries
the interval over its eight bytes (log entry 53). -/
def State.runSetSealInterval (s : State) (id seconds : Nat) : State :=
  if 60 < seconds then s.completeBare id .refusedArgument
  else
    let s1 := s.onSpm fun m => { m with sealInterval := seconds }
    let s2 := if (s1.spm.firstIn .filling).isSome then s1.onSpm Spm.restart else s1.onSpm fun m => { m with sealTimer := none }
    s2.complete id .ok (dv 8 seconds) noDetail

/-- SENSOR_PLAN (R155, R156). -/
def State.runSensorPlan (s : State) (id : Nat) (p : PlanArgs) : State :=
  match planOf s.mc.state.threaded p with
  | none => s.completeBare id .refusedArgument
  | some plan => (s.onSs fun x => x.apply plan).complete id .ok (dv 4 s.ss.stamp ++ du 4) noDetail

/-- The state SET_HEALTH sets from the value alone (R166). -/
def healthOf (ci : Nat) : Health := if 700 ≤ ci then .cleanRequired else if 400 ≤ ci then .cleanAdvised else .good

/-- SET_HEALTH (R166). -/
def State.runSetHealth (s : State) (id ci : Nat) : State :=
  if 1000 < ci then s.completeBare id .refusedArgument
  else
    let s1 := (s.onHm fun h => { h with ci := ci }).enterHealth (healthOf ci) 3
    s1.complete id .ok (dv 2 ci ++ dv 1 s1.hm.health.code ++ du 5) noDetail

/-- QUERY_HEALTH's detail B (R167). With nothing scored yet the increment, 0 to 13, and the amplitude bit are free values,
numbered from `n` (log entry 5). Bits 3 to 7 of byte 6, which the table does not name, are 0 (DESIGN CHOICE, log entry 85). -/
def lastDetail (n : Nat) : Option Scored → Detail
  | none =>
    dv 4 Config.absent32 ++ dv 1 0 ++ dv 1 ((Config.freeByte n).toNat % 14)
      ++ dv 1 (byteOfBits [false, false, bitOf (Config.freeByte (n + 1)) 0]) ++ dv 1 0
  | some r =>
    dv 4 r.stripe ++ dv 1 (if r.verify then 1 else 2) ++ dv 1 r.increment
      ++ dv 1 (byteOfBits [decide (0 < r.decrement), r.terms, r.amplitude.isNone])
      ++ dv 1 (if r.terms then r.maxCorrected else 0)

/-- QUERY_HEALTH (R167). -/
def State.runQueryHealth (s : State) (id : Nat) : State :=
  ({ s with free := s.free + 2 } : State).complete id .ok
    (dv 2 s.hm.ci ++ dv 1 s.hm.health.code ++ dv 1 s.hm.threshold ++ dv 4 s.hm.wear) (lastDetail s.free s.hm.last)

/-- LOOPBACK (R170). -/
def State.runLoopback (s : State) (id slot : Nat) : State :=
  if (s.mc.state ≠ .empty ∧ s.mc.state ≠ .present) ∨ s.spm.direction ≠ .none ∨ s.tte.loopback.isSome = true then
    s.completeBare id .refusedState
  else if s.spm.n ≤ slot then s.completeBare id .refusedArgument
  else
    (s.setStage id .running).onTte fun t =>
      { t with loopback := some { cmd := id, slot := slot, fetched := 0, sent := 0 }, fifo := [] }

/-! ### CLOSE and ABORT (R33, R186) -/

/-- A DELIVER_RECORD is outstanding (R33): from its taking until the status write that follows its record (R183). -/
def State.delivering (s : State) : Bool :=
  s.ci.outstanding.any fun t => match t.cmd with | .deliverRecord _ => true | _ => false

/-- A reposition stops where it is and does not run back further (R111). -/
def State.stopReposition (s : State) : State := if s.mc.state = .repositioning then s.onMc Mc.decelerate else s

/-- The tape stops in READY, when it streams or repositions (R33, R102, R111). A motion command in progress under CLOSE, of
which R33 does not speak, runs on to its own end with the direction NONE (DESIGN CHOICE, log entry 65). -/
def State.stopStreaming (s : State) : State :=
  if s.mc.state = .streaming then s.onMc Mc.decelerate else s.stopReposition

/-- CLOSE (R33). -/
def State.runClose (s : State) (id : Nat) : State :=
  match s.spm.direction with
  | .none => s.completeBare id .ok
  | .writeOpen => if s.spm.allFree then s.leaveWrite.completeBare id .ok else s.completeBare id .pendingWrite
  | .writeFailed => s.completeBare id .refusedState
  | .readOpen =>
    if s.delivering then s.completeBare id .refusedState else s.leaveRead.stopStreaming.completeBare id .ok

/-- The pool is cleared as ABORT clears it (R35, R81, R102). -/
def State.abortPool (s : State) : State :=
  match s.spm.direction with
  | .none => s.stopReposition
  | .readOpen => s.abortDelivery.leaveRead.stopStreaming
  | _ => (s.abortWrite.onRg fun r => { r with stopKind := .none }).stopReposition

/-- ABORT stops this kind of motion command (R117, R118, R134). -/
def MotionKind.stoppable : MotionKind → Bool
  | .load | .unload => false
  | _ => true

/-- The finish of a motion command that ABORT stops (R120, R125, R130); a SPACE's counts are free (DESIGN CHOICE, log entry
128). -/
def Job.abortFinish (j : Job) : Finish := { Finish.bare .aborted with detailA := j.cutDetail }

/-- ABORT reaches the motion command in progress (R120, R125, R134). -/
def State.abortJob (s : State) : State :=
  match s.mc.job with
  | none => s
  | some j =>
    if j.kind.stoppable then
      let s1 := s.setJob { j with stage := .finishing, finish := some j.abortFinish, aborted := true }
      if s1.mc.state = .moving then s1.onMc fun m => { m.decelerate with resume := false } else s1
    else s

/-- A queued command that an invalidation write in flight will complete (R63). -/
def State.onLink (s : State) (id : Nat) : Bool :=
  match s.cml.op with
  | some op => op.kind == .invalidate id
  | none => false

/-- A data command ends ABORTED; a FLUSH carries the end of data (R78, R186). -/
def State.abortData (s : State) (id : Nat) : State :=
  match (s.taken id).map (·.cmd) with
  | some HostCmd.flush => s.complete id .aborted s.flushDetails.1 s.flushDetails.2
  | _ => s.completeBare id .aborted

/-- A FLUSH dispatched that holds the head until the last write-side slot is freed (R78). -/
def State.flushHolds (s : State) (id : Nat) : Bool :=
  !s.spm.writeEmpty
    && (match s.taken id with
        | some t => t.cmd == .flush && (t.stage == .running || t.stage == .aborted)
        | none => false)

/-- ABORT reaches a data command: it ends ABORTED at once, but for a FLUSH that holds the head, which the freeing of the last
write-side slot ends (R78, R186). The commands behind that one do not wait for it (DESIGN CHOICE, log entry 107). -/
def State.cutData (s : State) (id : Nat) : State :=
  if s.flushHolds id then s.setStage id .aborted else s.abortData id

/-- The queues under ABORT (R186): data commands and waiting motion commands complete ABORTED in queue order; one that holds the
head completes when its owner ends it. -/
def State.abortQueues (s : State) : State :=
  let s1 := s.onCml fun c =>
    { c with op := c.op.map fun o => match o.kind with | .invalidate _ => { o with aborted := true } | _ => o }
  let s2 := (s1.ci.dataQueue.filter fun id => !s1.onLink id).foldl State.cutData s1
  let gone := s2.ci.motionQueue.filter fun id =>
    match s2.taken id with
    | some t => t.stage == .waiting && ((t.cmd.motionKind.map MotionKind.stoppable).getD true)
    | none => false
  gone.foldl (fun t id => t.completeBare id .aborted) s2

/-- ABORT has settled (R186). -/
def State.abortSettled (s : State) : Bool :=
  s.spm.direction == .none && !s.spm.clearing
    && s.ue.state != .opening && s.ue.state != .open_ && s.ue.state != .finishing
    && (match s.mc.job with | some j => !j.aborted | none => true)

/-- Every waiting ABORT completes in one step (R186), the one dispatched first before the others (DESIGN CHOICE, log entry
124). -/
def State.completeAborts (s : State) : State := s.ci.aborts.foldl (fun t id => t.completeBare id .ok) s

/-- ABORT (R186). Its completions join the pending list by block: the Pack Engine's intake order, the delivery, the data queue,
the waiting motion commands, and last ABORT itself where nothing is left to settle (DESIGN CHOICE, log entry 124). -/
def State.runAbort (s : State) (id : Nat) : State :=
  let s1 := (s.setStage id .running).onCi fun c => { c with aborts := c.aborts ++ [id] }
  let s2 := s1.abortPack.abortPool.abortJob.abortQueues
  if s2.abortSettled then s2.completeAborts else s2

/-- A configuration command, CLOSE or ABORT is dispatched (R184, R185). -/
def State.runConfig (s : State) (t : Taken) : State :=
  if t.spoiled then s.completeBare t.id .refusedArgument
  else
    match t.cmd with
    | .setPool n => s.runSetPool t.id n
    | .setCompression v => s.runSetCompression t.id v
    | .setSealInterval v => s.runSetSealInterval t.id v
    | .sensorPlan p => s.runSensorPlan t.id p
    | .setHealth v => s.runSetHealth t.id v
    | .queryHealth => s.runQueryHealth t.id
    | .loopback i => s.runLoopback t.id i
    | .close => s.runClose t.id
    | .abort => s.runAbort t.id
    | _ => s.completeBare t.id .refusedArgument

/-! ### Data commands (R38, R39, R62, R78, R84, R94) -/

/-- STREAM_RECORD's arguments are in range (R38). -/
def streamOk (count : Nat) (lengths : List Nat) : Bool :=
  decide (1 ≤ count) && decide (count ≤ 6) && (lengths.take count).all fun l => decide (l ≤ Config.maxRecord)

/-- An UNLOAD holds back further records while the direction is WRITE_OPEN (R35). -/
def State.intakeHeld (s : State) : Bool :=
  s.spm.direction == .writeOpen
    && (match s.mc.job with | some j => j.kind == .unload && j.stage == .emptying | none => false)

/-- The result that the direction gives a command of the write side; `none` in WRITE_OPEN (R75, R185). -/
def State.writeRefusal (s : State) : Option Result :=
  match s.spm.direction with
  | .writeOpen => none
  | .writeFailed => some s.causeResult
  | _ => some .refusedState

/-- STREAM_RECORD at the head of the data queue (R38). -/
def State.headStream (s : State) (t : Taken) (count : Nat) (lengths : List Nat) : Option State :=
  match s.writeRefusal with
  | some r => some (s.completeBare t.id r)
  | none =>
    if !streamOk count lengths then some (s.completeBare t.id .refusedArgument)
    else if s.pe.next.isSome then none
    else
      some (((s.setStage t.id .running).onCi fun c => { c with dataQueue := c.dataQueue.filter (· != t.id) }).onPe
        fun p => p.takeStream t.id (lengths.take count) s.earlyWarning)

/-- WRITE_MARK at the head of the data queue (R39). -/
def State.headMark (s : State) (t : Taken) (count sync : Nat) : Option State :=
  match s.writeRefusal with
  | some r => some (s.completeBare t.id r)
  | none =>
    if count = 0 ∨ 1 < sync then some (s.completeBare t.id .refusedArgument)
    else
      some (((s.setStage t.id .running).onCi fun c => { c with dataQueue := c.dataQueue.filter (· != t.id) }).onPe
        fun p => p.takeMark t.id count (sync == 1) s.earlyWarning)

/-- A FLUSH completes with its details (R78). One that arrives within the run-on and finds the write side empty already counts
as having emptied it, so that the tape stops without a reposition (R110; DESIGN CHOICE, log entry 69). -/
def State.endFlush (s : State) (id : Nat) (r : Result) : State :=
  (s.complete id r s.flushDetails.1 s.flushDetails.2).onRg fun g => { g with flushed := true }

/-- FLUSH at the head of the data queue with the intake order empty (R75, R78); under ABORT it ends with the last write-side slot
freed (R78, R186). -/
def State.headFlush (s : State) (t : Taken) : Option State :=
  if t.stage = .aborted then (if s.spm.writeEmpty then some (s.abortData t.id) else none)
  else
    match s.spm.direction with
    | .writeFailed =>
      if s.writingDone then some (s.complete t.id s.causeResult s.flushDetails.1 s.flushDetails.2)
      else if t.stage = .waiting then some (s.setStage t.id .running)
      else none
    | .writeOpen =>
      if t.stage = .waiting then
        let s1 := (s.setStage t.id .running).triggerSeal
        some (if s1.spm.writeEmpty then s1.endFlush t.id (okOr s1.earlyWarning) else s1)
      else if s.spm.writeEmpty then some (s.endFlush t.id (okOr s.earlyWarning))
      else none
    | _ => some (s.completeBare t.id .refusedState)

/-- OPEN_WRITE at the head of the data queue (R62, R63, R141). -/
def State.headOpenWrite (s : State) (t : Taken) : Option State :=
  if t.stage ≠ .waiting then none
  else
    match s.openWriteCheck with
    | some r => some (s.completeBare t.id r)
    | none =>
      if s.cml.recorded = .notValid then some (s.openSession t.id)
      else if s.cml.op.isSome then none
      else some ((s.setStage t.id .running).beginLink (.invalidate t.id) [.write 2])

/-- The conditions of R84 in their order. -/
def State.openReadCheck (s : State) : Option Result :=
  if s.spm.direction = .writeFailed then some s.causeResult
  else if s.mc.state ≠ .ready then some .refusedState
  else if s.unloading then some .refusedState
  else if s.spm.direction = .writeOpen ∧ s.spm.allFree = false then some .pendingWrite
  else if s.spm.direction ≠ .none then some .refusedState
  else if s.spm.n = 0 then some .refusedState
  else none

/-- The position a read session starts from; stripe 0 at the beginning of tape where none is known. -/
def State.readPosition (s : State) : DsPos :=
  s.mc.dsPos.getD
    { stripe := 0, record := 0, boundary := true, carried := { pass := 0, mark := 0 }, below := false }

/-- OPEN_READ (R84, R85). -/
def State.openRead (s : State) (id : Nat) : State :=
  let p := s.readPosition
  let s1 := (s.onSpm fun m => { m with direction := .readOpen }).formRead p
  let s2 := (s1.onUe fun _ => Ue.reset).openRate
  let end_ := match s.validDirectory with | some d => d.eodStripe | none => Config.absent32
  let s3 := s2.complete id .ok (dv 4 p.stripe ++ dv 1 p.carried.pass ++ dv 2 p.carried.mark ++ du 1)
    (dv 4 end_ ++ dv 1 s.cml.condition.code ++ du 3)
  s3.beginRead

/-- OPEN_READ at the head of the data queue (R84). -/
def State.headOpenRead (s : State) (t : Taken) : Option State :=
  match s.openReadCheck with
  | some r => some (s.completeBare t.id r)
  | none => some (s.openRead t.id)

/-- DELIVER_RECORD at the head of the data queue (R94). -/
def State.headDeliver (s : State) (t : Taken) (length : Nat) : Option State :=
  if t.stage ≠ .waiting then none
  else
    match s.spm.direction with
    | .writeFailed => some (s.completeBare t.id s.causeResult)
    | .readOpen =>
      if Config.maxRecord < length then some (s.completeBare t.id .refusedArgument)
      else
        let s1 := (s.setStage t.id .running).onUe fun u =>
          { u with state := .opening, cmd := some t.id, length := length, cursor := 0, record := none, output := [],
                   decoder := Decoder.empty }
        some s1.tryOpen
    | _ => some (s.completeBare t.id .refusedState)

/-- The head of the data queue is dispatched or carried on, if it can be (R184). A slot that spells no command that can run
is refused at its dispatch, when nothing holds it back any more (R35, R40, R182). -/
def State.serveData (s : State) : Option State :=
  match (s.ci.dataQueue.head?).bind s.taken with
  | none => none
  | some t =>
    if !s.barrierClear t then none
    else if (if t.cmd.announces then s.intakeHeld else !s.pe.intake.isEmpty) then none
    else if t.spoiled then some (s.completeBare t.id .refusedArgument)
    else
      match t.cmd with
      | .streamRecord count lengths => s.headStream t count lengths
      | .writeMark count sync => s.headMark t count sync
      | .flush => s.headFlush t
      | .openWrite => s.headOpenWrite t
      | .openRead => s.headOpenRead t
      | .deliverRecord length => s.headDeliver t length
      | _ => some (s.completeBare t.id .refusedArgument)

/-! ### Motion commands (R115, R117, R118, R120, R126, R129, R131) -/

/-- Read-ahead is under way (R115). -/
def State.readAhead (s : State) : Bool :=
  s.spm.direction == .readOpen
    && (s.mc.state == .streaming || s.mc.state == .repositioning || s.mc.state == .turnaround)

/-- The motion queue is served (R115, R133). -/
def State.motionServed (s : State) : Bool :=
  s.mc.job.isNone && s.mc.thermal == .normal
    && (match s.mc.state with
        | .empty | .present | .ready | .fault | .stranded => true
        | _ => s.readAhead)

/-- LOAD asks its load read, which waits while another link operation is in flight (R117, R136, R148). -/
def State.askLoadRead (s : State) : State := if s.cml.op.isSome then s else s.beginLink .loadRead [.read 0 192]

/-- LOAD (R117). -/
def State.runLoad (s : State) (id : Nat) : State :=
  if s.mc.state ≠ .present then s.completeBare id .refusedState
  else ((s.setStage id .running).setJob (Job.new id .load .memory)).askLoadRead

/-- UNLOAD clears a side as ABORT clears it (R35, R82, R102): from WRITE_OPEN, which only an UNLOAD in FAULT finds, the Pack
Engine's work and a FLUSH that waits end ABORTED too, the FLUSH with the last write-side slot freed (R78); in WRITE_FAILED a
command that waits as FLUSH does keeps R75's result (log entry 28). -/
def State.unloadPool (s : State) : State :=
  if s.spm.direction = .writeOpen then
    let s1 := s.abortPack.abortPool
    match s1.ci.dataQueue.head?.bind s1.taken with
    | some t => if t.stage = Stage.running then s1.cutData t.id else s1
    | none => s1
  else s.abortPool

/-- UNLOAD (R118, R119). -/
def State.runUnload (s : State) (id : Nat) : State :=
  let j := Job.new id .unload .intake
  match s.mc.state with
  | .empty => s.completeBare id .refusedState
  | .present => s.complete id .ok (dv 1 0 ++ du 7) noDetail
  | .fault | .stranded => (s.setStage id .running).unloadPool.beginRecovery j
  | _ =>
    let s1 := s.setStage id .running
    if s.spm.direction = .writeOpen then s1.setJob j else s1.unloadPool.setJob { j with stage := .emptying }

/-- A move of the tape is refused in this state (R115). -/
def State.moveRefused (s : State) : Bool :=
  !(s.mc.state == .ready || s.readAhead) || s.spm.direction == .writeOpen || s.spm.direction == .writeFailed

/-- REWIND (R120). -/
def State.runRewind (s : State) (id : Nat) : State :=
  if s.moveRefused then s.completeBare id .refusedState
  else (s.setStage id .running).clearForMove.goPlace (Job.new id .rewind .toPlace) Finish.rewound { pass := 0, mark := 0 }

/-- LOCATE (R126, R127, R128). -/
def State.runLocate (s : State) (id kind target : Nat) : State :=
  if s.moveRefused then s.completeBare id .refusedState
  else if 1 < kind ∨ (kind = 0 ∧ Config.lastStripe < target) then s.completeBare id .refusedArgument
  else
    let s1 := (s.setStage id .running).clearForMove
    let j := { Job.new id .locate .toStart with byRecord := kind == 1 }
    if kind = 0 then s1.goStripe j target else s1.goRecord j target none

/-- LOCATE_EOD (R129). -/
def State.runLocateEod (s : State) (id : Nat) : State :=
  if s.moveRefused then s.completeBare id .refusedState
  else (s.setStage id .running).clearForMove.goEnd (Job.new id .locateEod .toStart)

/-- SPACE (R131, R132). One with count 0 completes OK at once, in READ_OPEN too, and clears nothing of the read side (DESIGN
CHOICE, log entry 94). -/
def State.runSpace (s : State) (id kind : Nat) (count : Int) : State :=
  let plan : SpacePlan := { filemarks := kind == 1, count := count, origin := (s.mc.dsPos.map (·.record)).getD 0 }
  if s.moveRefused then s.completeBare id .refusedState
  else if 1 < kind ∨ 65535 < count.natAbs then s.completeBare id .refusedArgument
  else if count = 0 then s.complete id .ok (spaceFinish plan .ok 0).detailA (spaceFinish plan .ok 0).detailB
  else ((s.setStage id .running).clearForMove).goSpace (Job.new id .space .toStart) plan

/-- The head of the motion queue is dispatched (R184, R185). -/
def State.runMotion (s : State) (t : Taken) : State :=
  if t.spoiled then s.completeBare t.id .refusedArgument
  else
    match t.cmd with
    | .load => s.runLoad t.id
    | .unload => s.runUnload t.id
    | .rewind => s.runRewind t.id
    | .locate kind target => s.runLocate t.id kind target
    | .locateEod => s.runLocateEod t.id
    | .space kind count => s.runSpace t.id kind count
    | _ => s.completeBare t.id .refusedArgument

/-- The head of the motion queue is served, if it can be (R115, R184). -/
def State.serveMotion (s : State) : Option State :=
  match (s.ci.motionQueue.head?).bind s.taken with
  | none => none
  | some t => if t.stage = .waiting ∧ s.motionServed = true ∧ s.barrierClear t = true then some (s.runMotion t) else none

/-! ### Taking a command (R183, R184) -/

/-- A command joins the outstanding list and its queue (R183, R184). -/
def State.join (s : State) (t : Taken) : State :=
  s.onCi fun c =>
    { c with
      outstanding := c.outstanding ++ [t], nextId := c.nextId + 1
      motionQueue := if t.queue = .motion then c.motionQueue ++ [t.id] else c.motionQueue
      dataQueue := if t.queue = .data then c.dataQueue ++ [t.id] else c.dataQueue }

/-- The command as it is taken. -/
def State.newTaken (s : State) (tag : BitVec 16) (flags : BitVec 8) (malformed : Bool) (cmd : HostCmd) : Taken :=
  { id := s.ci.nextId, tag := tag, flags := flags, malformed := malformed, cmd := cmd, queue := cmd.group,
    stage := .waiting }

/-- A command is taken, unless 16 are outstanding (R183); a configuration command is dispatched at once, a queued one when
it is the head (R184). -/
def State.takeCmd (s : State) (tag : BitVec 16) (flags : BitVec 8) (malformed : Bool) (cmd : HostCmd) : State :=
  if Config.maxOutstanding ≤ s.ci.outstanding.length then s
  else
    let t := s.newTaken tag flags malformed cmd
    let s1 := s.join t
    match t.queue with
    | .configuration =>
      if s1.barrierClear t then s1.runConfig t else s1.onCi fun c => { c with configWait := c.configWait ++ [t.id] }
    | .motion => s1.serveMotion.getD s1
    | .data => s1.serveData.getD s1

/-- A barriered configuration command whose turn has come (R184). -/
def State.serveConfig (s : State) : Option State :=
  match (s.ci.configWait.filterMap s.taken).find? fun t => s.barrierClear t with
  | some t =>
    some ((s.onCi fun c => { c with configWait := c.configWait.filter (· != t.id) }).runConfig t)
  | none => none

end Sys2Proof.Machine
end

