-- ==== Sys2Proof/Machine/Path.lean ====
section
/-! DEFINITION. The upstream port (chapter 11): classification (R171), access outcomes (R176), the posting buffer (R177), hold
modes (R178), the map page and its commits (R172 to R175). -/

namespace Sys2Proof.Machine

/-! ### Classification (R171) -/

/-- How an address is classified (R171). -/
inductive Place where
  | map
  | region (index : Nat) (d : Descriptor)
  | unmapped
  deriving DecidableEq, Repr

/-- A descriptor in effect covers an address. -/
def Descriptor.covers (d : Descriptor) (a : Nat) : Bool :=
  d.enable && decide (d.base ≤ a) && decide (a < d.base + d.pages * Config.pageSize)

/-- The lowest-numbered descriptor that covers an address, counted from `i`. -/
def coveringFrom (a : Nat) : Nat → List Descriptor → Option (Nat × Descriptor)
  | _, [] => none
  | i, d :: ds => if d.covers a then some (i, d) else coveringFrom a (i + 1) ds

/-- The class of an address (R171). -/
def State.classify (s : State) (a : Nat) : Place :=
  if Config.mapPage ≤ a then .map
  else
    match coveringFrom a 0 s.bpu.effective with
    | some (i, d) => .region i d
    | none => .unmapped

/-- A descriptor allows an initiator (R173). -/
def Descriptor.allows (d : Descriptor) : Initiator → Bool
  | .drive => d.allowDrive
  | .link => d.allowLink

/-- The initiator has an access in progress (R171). -/
def State.busy (s : State) (who : Initiator) : Bool :=
  s.bpu.held.any (fun h => h.access.who == who)
    || s.bpu.upstream.any fun r => match r.access? with | some a => a.who == who | none => false

/-! ### The posting buffer (R177) and the command ring (R183) -/

/-- Bytes laid over a line's marked bytes. -/
def layBytes (l : List (Option Byte)) (off : Nat) (bs : List Byte) : List (Option Byte) :=
  (List.range 8).map fun k => if off ≤ k ∧ k < off + bs.length then bs[k - off]? else (l.getD k none)

/-- Merges bytes into the line of their block, if there is one. -/
def mergeLine (block off : Nat) (bs : List Byte) : List UpReq → Option (List UpReq)
  | [] => none
  | .line b l :: rest =>
    if b = block then some (.line b (layBytes l off bs) :: rest) else (mergeLine block off bs rest).map (.line b l :: ·)
  | .access a :: rest => (mergeLine block off bs rest).map (.access a :: ·)

/-- The lines in use. -/
def Bpu.lines (b : Bpu) : Nat := b.upstream.countP fun r => r.access?.isNone

/-- Posts a write, if it finds its line or an empty one (R177). -/
def Bpu.post (b : Bpu) (a : Access) : Option Bpu :=
  match mergeLine a.block (a.addr - a.block) a.bytes b.upstream with
  | some q => some { b with upstream := q }
  | none =>
    if b.lines < 4 then
      some { b with upstream := b.upstream ++ [.line a.block (layBytes [] (a.addr - a.block) a.bytes)] }
    else none

/-- Asks for a read of the post word at the intake index, once (R183). -/
def State.askPost (s : State) : State := if s.bpu.ring.contains .readPost then s else s.askRing .readPost

/-- The CI-unit is shown a COMMAND write (R183): one whose address is of the COMMAND ring as it is posted, whatever it was when the
write began to be held for a line (DESIGN CHOICE, log entry 130). -/
def State.showCommand (s : State) (a : Access) : State :=
  match s.classify a.addr with
  | .region _ d =>
    if d.kind = .command ∧ a.block = s.ringAddr .command 64 s.ci.intake + 56 then s.askPost else s
  | _ => s

/-- A posted write is answered OKAY at once; with all four lines in use it is held (R177). -/
def State.postWrite (s : State) (a : Access) : State :=
  match s.bpu.post a with
  | some b => ((s.onBpu fun _ => b).answer a.who true []).showCommand a
  | none =>
    s.onBpu fun b => { b with held := b.held ++ [{ access := a, why := .line, descriptor := none, timer := none }] }

/-! ### Apertures and hold modes (R41, R42, R96, R178) -/

/-- An engine cannot take an aperture access yet, at its first examination (R178). -/
def State.holdAccess (s : State) (a : Access) (why : HoldWhy) (i : Nat) (d : Descriptor) : State :=
  match d.mode with
  | .refuse => s.answerError a
  | .wait =>
    s.onBpu fun b => { b with held := b.held ++ [{ access := a, why := why, descriptor := some i, timer := none }] }
  | .limit =>
    s.onBpu fun b =>
      { b with held := b.held ++ [{ access := a, why := why, descriptor := some i,
                                    timer := some (d.limit * Config.ticksPerHoldUnit) }] }

/-- Bytes of an aperture. -/
def Descriptor.bytes (d : Descriptor) : Nat := d.pages * Config.pageSize

/-- The Pack Engine examines a pack write; `none` where it cannot take it yet (R41, R42). -/
def State.tryPack (s : State) (a : Access) (d : Descriptor) : Option State :=
  match s.examinePack (a.addr - d.base) (widthBytes a.width) with
  | .taken => some ((s.onPe fun p => p.take a.bytes d.bytes).answer a.who true [])
  | .error => some (s.answerError a)
  | .sequence => some ((s.onPe Pe.refuse).answerError a)
  | .hold => none

/-- The Unpack Engine examines an unpack read; `none` where it cannot answer yet (R96). -/
def State.tryUnpack (s : State) (a : Access) (d : Descriptor) : Option State :=
  match s.examineUnpack (a.addr - d.base) (widthBytes a.width) d.bytes with
  | .answer bytes => some ((s.answer a.who true bytes).unpackTaken (widthBytes a.width))
  | .error => some (s.answerError a)
  | .hold => none

/-- A pack write handed to the Pack Engine (R41, R42, R178). -/
def State.handPack (s : State) (a : Access) (i : Nat) (d : Descriptor) : State :=
  (s.tryPack a d).getD (s.holdAccess a .pack i d)

/-- An unpack read handed to the Unpack Engine (R96, R178). -/
def State.handUnpack (s : State) (a : Access) (i : Nat) (d : Descriptor) : State :=
  (s.tryUnpack a d).getD (s.holdAccess a .unpack i d)

/-! ### The map page (R172 to R175) -/

/-- The code of a region kind (R173). -/
def regionKindOf : Nat → RegionKind
  | 1 => .plain | 2 => .command | 3 => .completion | 4 => .sensor | 5 => .pool | 6 => .pack | 7 => .unpack
  | _ => .none

/-- The hold mode of a descriptor's byte 9 (R173). -/
def holdModeOf : Nat → HoldMode
  | 1 => .limit | 2 => .refuse
  | _ => .wait

/-- The fields of a descriptor's sixteen bytes (R173). -/
def Descriptor.ofBytes (b : List Byte) : Descriptor :=
  { base := fieldAt b 0 4, pages := fieldAt b 4 4, kind := regionKindOf (fieldAt b 8 1), mode := holdModeOf (fieldAt b 9 1)
    limit := fieldAt b 10 1, allowDrive := bitOf (b.getD 11 0) 0, allowLink := bitOf (b.getD 11 0) 1
    enable := fieldAt b 12 1 == 1 }

/-- The most and fewest pages of a kind (R174). -/
def pageLimits : RegionKind → Nat × Nat
  | .plain => (1, 131072)
  | .command => (1, 4)
  | .completion => (1, 8)
  | .sensor | .pack | .unpack => (1, 16)
  | .pool => (2048, 131072)
  | .none => (0, 0)

/-- The size or extent breaks the kind's limits (R174). -/
def Descriptor.breaksLimits (d : Descriptor) : Bool :=
  decide (d.pages < (pageLimits d.kind).1) || decide ((pageLimits d.kind).2 < d.pages) || d.base % 4096 != 0
    || decide (Config.mapPage < d.base + d.bytes)

/-- The old kind of R174. -/
def State.oldKind (s : State) (i : Nat) : RegionKind :=
  match s.bpu.effective[i]? with
  | some d => if d.enable then d.kind else .none
  | none => .none

/-- Another descriptor of the same kind is in effect (R174, code 3). -/
def State.kindTaken (s : State) (i : Nat) (k : RegionKind) : Bool :=
  (List.range 16).any fun j => j != i && (s.oldKind j == k)

/-- The first reason to refuse a commit of descriptor `i` with these sixteen bytes, if any (R174). -/
def State.judgeCommit (s : State) (i : Nat) (b : List Byte) : Option Nat :=
  let d := Descriptor.ofBytes b
  let allowed := fieldAt b 11 1
  if ((b.drop 13).take 3).any (· != 0) || decide (4 ≤ allowed) || decide (1 < fieldAt b 12 1) then some 1
  else if decide (7 < fieldAt b 8 1) || decide (2 < fieldAt b 9 1)
      || (d.enable && (d.kind == .none || (d.mode == .limit && d.limit == 0) || allowed == 0)) then some 2
  else if d.enable && d.kind != .plain && s.kindTaken i d.kind then some 3
  else if d.enable && d.breaksLimits then some 4
  else if s.holdsState (s.oldKind i) || (d.enable && s.holdsState d.kind) then some 5
  else none

/-- An accepted commit's effect on the engine of one kind (R175, R183, R187). With the COMPLETION ring the kinds kept for its slots
(R188) are forgotten (DESIGN CHOICE, log entry 100); with the COMMAND ring the reads of the Command Intake that wait at the arbiter
are dropped (DESIGN CHOICE, log entry 106). -/
def State.concern (s : State) : RegionKind → State
  | .pool => s.onSpm fun m => { m with slots := [] }
  | .pack => s.onPe fun p => { p with cursor := 0 }
  | .sensor => s.onSs fun x => { x with tail := 0 }
  | .command =>
    (s.onCi fun c => { c with intake := 0 }).onBpu fun b =>
      { b with ring := b.ring.filter fun r => r != .readPost && r != .readSlot }
  | .completion => s.onCw fun c => { c with tail := 0, slotKinds := [] }
  | .none | .plain | .unpack => s

/-- An access held under a descriptor just committed is classified again (R175; log entry 18). -/
def State.rehold (s : State) (h : Held) : State :=
  match s.classify h.access.addr, h.why with
  | .region i d, .pack =>
    if d.kind = .pack ∧ d.allows h.access.who = true then s.handPack h.access i d else s.answerError h.access
  | .region i d, .unpack =>
    if d.kind = .unpack ∧ d.allows h.access.who = true then s.handUnpack h.access i d else s.answerError h.access
  | _, _ => s.answerError h.access

/-- Every access held under descriptor `i`, oldest first, is classified again (R175). A passing access that waits at the arbiter
is not held under a descriptor: a waiting read is served all the same (DESIGN CHOICE, log entry 87). -/
def State.reclassify (s : State) (i : Nat) : State :=
  let mine := s.bpu.held.filter fun h => h.descriptor == some i
  mine.foldl State.rehold (s.onBpu fun b => { b with held := b.held.filter fun h => h.descriptor != some i })

/-- Bytes laid over a list of bytes. -/
def layOver (l : List Byte) (off : Nat) (bs : List Byte) : List Byte := l.take off ++ bs ++ l.drop (off + bs.length)

/-- A write to the descriptor area is performed and captured (R173). -/
def State.captureWrite (s : State) (off : Nat) (bs : List Byte) : State :=
  (s.onDram fun m => Memory.writeBytes m (Config.mapPage + off) bs).onBpu fun b =>
    { b with captured := layOver b.captured off bs }

/-- A commit is accepted: the effective table changes and the engines concerned are told (R173, R175). -/
def State.acceptCommit (s : State) (a : Access) (i : Nat) (b : List Byte) : State :=
  let old := s.oldKind i
  let d := Descriptor.ofBytes b
  let s1 := (s.captureWrite (a.addr - Config.mapPage) a.bytes).onBpu fun u => { u with effective := u.effective.set i d }
  let s2 := (s1.answer a.who true []).concern old
  let s3 := if d.enable && d.kind != old then s2.concern d.kind else s2
  s3.reclassify i

/-- The sixteen bytes of descriptor `i` as a write to its commit word proposes them (R173). -/
def State.proposed (s : State) (a : Access) (i : Nat) : List Byte :=
  ((layOver s.bpu.captured (a.addr - Config.mapPage) a.bytes).drop (16 * i)).take 16

/-- A commit is refused: answered ERROR, with the MAP_REFUSED note (R173, R174). -/
def State.refuseCommit (s : State) (a : Access) (i code : Nat) (b : List Byte) : State :=
  (s.answerError a).note .mapRefused
    (dv 1 i ++ dv 1 code ++ dv 1 (match a.who with | .drive => 0 | .link => 1) ++ du 5) ((b.drop 8).map some)

/-- A write to a commit word (R173, R174). -/
def State.commit (s : State) (a : Access) (i : Nat) : State :=
  match s.judgeCommit i (s.proposed a i) with
  | none => s.acceptCommit a i (s.proposed a i)
  | some code => s.refuseCommit a i code (s.proposed a i)

/-- The word of the map page at an offset, as DRAM holds it (R172). -/
def State.mapWord (s : State) (off : Nat) : Nat := ofLe (Memory.readBytes s.dram (Config.mapPage + off) 4)

/-- The captured word at an offset takes effect (R154, R172, R187, R188). Of two words that one write covers the lower is captured
first (DESIGN CHOICE, log entry 131). -/
def State.captureWord (s : State) (off : Nat) : State :=
  if off = 256 then ((s.onCw fun c => { c with head := s.mapWord 256 }).tryRecord).judgeAttn
  else if off = 260 then (s.onSs fun x => { x with head := s.mapWord 260 }).judgeAttn
  else if off = 264 then (s.onCw fun c => { c with mask := s.mapWord 264 }).judgeAttn
  else if off = 268 ∧ s.mapWord 268 = 1 then s.controllerReset
  else s

/-- The words of the map page that a write touches. -/
def touchedWords (off n : Nat) : List Nat := [256, 260, 264, 268].filter fun o => off < o + 4 ∧ o < off + n

/-- A write of the drive processor to the map page, performed at its grant (R172, R173). -/
def State.mapWrite (s : State) (a : Access) : State :=
  let off := a.addr - Config.mapPage
  if off < 256 then
    if off % 16 < 8 then (s.captureWrite off a.bytes).answer a.who true [] else s.commit a (off / 16)
  else
    let s1 := (s.onDram fun m => Memory.writeBytes m a.addr a.bytes).answer a.who true []
    (touchedWords off (widthBytes a.width)).foldl State.captureWord s1

/-! ### Accesses at the port (R34, R176) -/

/-- The slot of the pool an address falls in is FREE (R34). -/
def State.inFreeSlot (s : State) (a : Nat) : Bool :=
  match s.region .pool with
  | some d => decide (d.base ≤ a) && (s.spm.slots[(a - d.base) / Config.stripeSize]?).any fun x => x.state == .free
  | none => false

/-- An unposted write outside the map page is performed at its grant: a POOL write where the slot it then falls in is FREE
(R34), an UNPACK write always, since it passes (R176). Which of the two it is was decided once, at its arrival; a commit that
comes between changes neither (DEDUCED, log entry 17). -/
def State.writable (s : State) (a : Access) : Bool := !a.pool || s.inFreeSlot a.addr

/-- An upstream access is granted the port (R34, R172, R176, R177). -/
def State.performAccess (s : State) (a : Access) : State :=
  if !a.write then s.answer a.who true (s.seenBytes a.addr (widthBytes a.width))
  else if Config.mapPage ≤ a.addr then s.mapWrite a
  else if s.writable a then (s.onDram fun m => Memory.writeBytes m a.addr a.bytes).answer a.who true []
  else s.answerError a

/-- An upstream access joins those that wait for the port (R179). -/
def State.queueAccess (s : State) (a : Access) : State :=
  s.onBpu fun b => { b with upstream := b.upstream ++ [.access a] }

/-! ### Access outcomes (R171, R176, R181) -/

/-- A write that falls in a region (R176). A POOL or UNPACK write waits for the port with the class it has here (DEDUCED, log
entry 17). -/
def State.regionWrite (s : State) (a : Access) (i : Nat) (d : Descriptor) : State :=
  if !d.allows a.who then s.answerError a
  else
    match d.kind with
    | .plain | .command | .none => s.postWrite a
    | .completion | .sensor => s.answerError a
    | .pool => s.queueAccess { a with pool := true }
    | .unpack => s.queueAccess a
    | .pack => s.handPack a i d

/-- The descriptor whose commit word a write to the map page falls in (R173). -/
def Access.commitOf (a : Access) : Option Nat :=
  let off := a.addr - Config.mapPage
  if off < 256 ∧ 8 ≤ off % 16 then some (off / 16) else none

/-- A write to the map page (R172): the descriptors and the four words are the drive processor's. A commit that stands to be
refused is answered at once, without use of the port (R176); any other is judged when it is performed. So a commit
that waits at the arbiter is judged at its arrival and again at its grant, and refused if either refuses it (DESIGN CHOICE, log
entry 86). -/
def State.mapAccess (s : State) (a : Access) : State :=
  if a.who = .drive ∧ a.addr < Config.mapPage + 272 then
    match a.commitOf with
    | none => s.queueAccess a
    | some i =>
      match s.judgeCommit i (s.proposed a i) with
      | none => s.queueAccess a
      | some code => s.refuseCommit a i code (s.proposed a i)
  else s.answerError a

/-- A well-formed access is handled by its class (R176). -/
def State.route (s : State) (a : Access) : State :=
  match s.classify a.addr, a.write with
  | .map, true => s.mapAccess a
  | .region i d, true => s.regionWrite a i d
  | .unmapped, true => s.postWrite a
  | .region i d, false =>
    if d.kind = .unpack ∧ d.allows a.who = true then s.handUnpack a i d else s.queueAccess a
  | _, false => s.queueAccess a

/-- An access is malformed (R171). -/
def Access.malformed (a : Access) : Bool :=
  a.addr % widthBytes a.width != 0 || decide (Config.dramSize ≤ a.addr)

/-- The initiator sees no answer while its access waits (R171). -/
def State.clearAnswer (s : State) (who : Initiator) : State :=
  s.onBpu fun b =>
    match who with
    | .drive => { b with driveAnswer := none }
    | .link => { b with linkAnswer := none }

/-- An access arrives at the upstream port (R171, R176); during the map-page writes of a controller reset it is stretched
(R181). -/
def State.arriveAt (s : State) (a : Access) : State :=
  let s1 := s.clearAnswer a.who
  if a.malformed then s1.answerError a
  else if 0 < s1.bpu.rewrites then
    s1.onBpu fun b => { b with held := b.held ++ [{ access := a, why := .reset, descriptor := none, timer := none }] }
  else s1.route a

/-! ### Held accesses examined again (R42, R96, R177, R181) -/

/-- The held access is taken out. -/
def State.unhold (s : State) (h : Held) : State :=
  s.onBpu fun b => { b with held := b.held.filter fun k => k.access.who != h.access.who }

/-- The descriptor an access is held under (R175, R178). -/
def State.heldUnder (s : State) (h : Held) : Option Descriptor := h.descriptor.bind fun i => s.bpu.effective[i]?

/-- One held access examined again; `none` where it stays held. -/
def State.reexamine (s : State) (h : Held) : Option State :=
  let s1 := s.unhold h
  match h.why with
  | .reset => if s.bpu.rewrites = 0 then some (s1.route h.access) else none
  | .line => (s.bpu.post h.access).map fun _ => s1.postWrite h.access
  | .pack => (s.heldUnder h).bind fun d => s1.tryPack h.access d
  | .unpack => (s.heldUnder h).bind fun d => s1.tryUnpack h.access d

/-- The oldest held access that can be decided is decided: of two writes held for a posting line the one that arrived first takes
the line that drains (DESIGN CHOICE, log entry 104). -/
def State.releaseHeld (s : State) : Option State := s.bpu.held.findSome? s.reexamine

end Sys2Proof.Machine
end

