-- ==== Sys2Proof/Machine/Port.lean ====
section
/-! DEFINITION. The DRAM port (R179): the requesters, the arbiter with its starvation counts, and the transfer each grant
makes; the Tape Transfer Engine's channel FIFO (R61, R67, R86). -/

namespace Sys2Proof.Machine

/-! ### The channel FIFO (R61, R67, R83, R86, R170) -/

/-- The write channel takes up to `n` bytes of the transfer or the loopback (R67, R170). -/
def State.channelTakes (s : State) (n : Nat) : State :=
  let k := min n s.tte.fifo.length
  match s.tte.inFlight, s.tte.loopback with
  | some f, _ =>
    if f.transfer then
      s.onTte fun t => { t with fifo := t.fifo.drop k, inFlight := some { f with sent := f.sent + k } }
    else s
  | none, some l => s.onTte fun t => { t with fifo := t.fifo.drop k, loopback := some { l with sent := l.sent + k } }
  | none, none => s

/-- The read channel delivers bytes of the started reception; a byte that finds the FIFO full is lost (R86). -/
def State.channelDelivers (s : State) (bytes : List Byte) : State :=
  match s.tte.read.bind (·.reception) with
  | some x =>
    if x.started then
      let room := Config.channelFifo - s.tte.fifo.length
      (s.onTte fun t => { t with fifo := t.fifo ++ bytes.take room }).onRead fun r =>
        { r with reception := some { x with overrun := x.overrun || decide (room < bytes.length) } }
    else s
  | none => s

/-- What the channel did since the last grant (log entry 9). -/
def State.channelFlow (s : State) : ChannelFlow → State
  | .quiet => s
  | .taken n => s.channelTakes n
  | .delivered bytes => s.channelDelivers bytes

/-- What the Tape Transfer Engine has to transfer (R179): bytes of a slot to fetch, or received bytes to store. -/
inductive TteWork where
  | fetch (slot fetched : Nat)
  | store (slot stored : Nat)
  deriving DecidableEq, Repr

/-- The Tape Transfer Engine's transfer that waits, if any (R66, R67, R86, R170): it asks for a fetch while the FIFO has room for 64
bytes (DESIGN CHOICE, log entry 99). -/
def State.tteWork (s : State) : Option TteWork :=
  let room := decide (s.tte.fifo.length + 64 ≤ Config.channelFifo)
  match s.tte.inFlight, s.tte.loopback, s.tte.read.bind (·.reception) with
  | some f, _, _ => if room && decide (f.fetched < Config.stripeSize) then some (.fetch f.slot f.fetched) else none
  | none, some l, _ => if room && decide (l.fetched < Config.stripeSize) then some (.fetch l.slot l.fetched) else none
  | none, none, some x =>
    if x.started && !s.tte.fifo.isEmpty && decide (x.stored < Config.stripeSize) then some (.store x.slot x.stored) else none
  | none, none, none => none

/-- The Tape Transfer Engine is urgent (R61, R83, R179). -/
def State.tteUrgent (s : State) : Bool :=
  match s.tteWork with
  | some (.fetch _ _) => decide (s.tte.fifo.length < Config.urgentMark)
  | some (.store _ _) => decide (Config.channelFifo - s.tte.fifo.length < Config.urgentMark)
  | none => false

/-- Counts fetched bytes for the stripe in flight or the loopback. -/
def Tte.fetchedMore (t : Tte) (k : Nat) : Tte :=
  match t.inFlight, t.loopback with
  | some f, _ => { t with inFlight := some { f with fetched := f.fetched + k } }
  | none, some l => { t with loopback := some { l with fetched := l.fetched + k } }
  | none, none => t

/-- The Tape Transfer Engine's transfer is made, up to 64 bytes within an aligned block (R179). -/
def State.doTteWork (s : State) : TteWork → State
  | .fetch i n =>
    let a := s.slotBase i + n
    let k := min (64 - a % 64) (Config.stripeSize - n)
    s.onTte fun t => { t with fifo := t.fifo ++ Memory.readBytes s.dram a k }.fetchedMore k
  | .store i n =>
    let a := s.slotBase i + n
    let k := min (min (64 - a % 64) (Config.stripeSize - n)) s.tte.fifo.length
    ((s.onDram fun m => Memory.writeBytes m a (s.tte.fifo.take k)).onTte fun t => { t with fifo := t.fifo.drop k }).onRead
      fun r => { r with reception := r.reception.map fun x => { x with stored := x.stored + k } }

/-! ### The arbiter (R179) -/

/-- A requester waits for the port. -/
def State.waits (s : State) : Requester → Bool
  | .tte => s.tteWork.isSome
  | .upstream => !s.bpu.upstream.isEmpty
  | .pack => s.packWork.isSome
  | .unpack => s.unpackWork.isSome
  | .ring => !s.bpu.ring.isEmpty

/-- A requester's starvation count. -/
def Starve.get (c : Starve) : Requester → Nat
  | .tte => c.tte | .upstream => c.upstream | .pack => c.pack | .unpack => c.unpack | .ring => c.ring

/-- The fixed order as it stands (R179; log entry 10). -/
def State.portOrder (s : State) : List Requester :=
  if s.tteUrgent then [.tte, .upstream, .pack, .unpack, .ring] else [.upstream, .tte, .pack, .unpack, .ring]

/-- The requester the arbiter grants next (R179). -/
def State.choice (s : State) : Option Requester :=
  ((s.portOrder.find? fun r => s.waits r && decide (64 ≤ s.bpu.starve.get r)).or (s.portOrder.find? s.waits))

/-- A requester's count after a grant to `r`. -/
def State.countAfter (s : State) (r q : Requester) : Nat :=
  if q = r ∨ s.waits q = false then 0 else s.bpu.starve.get q + 1

/-- The counts after a grant to `r` (R179). -/
def State.countGrant (s : State) (r : Requester) : State :=
  s.onBpu fun b =>
    { b with starve :=
        { tte := s.countAfter r .tte, upstream := s.countAfter r .upstream, pack := s.countAfter r .pack,
          unpack := s.countAfter r .unpack, ring := s.countAfter r .ring } }

/-- A requester that has stopped waiting has its count at 0 (R179). -/
def State.dropCounts (s : State) : State :=
  let keep (q : Requester) : Nat := if s.waits q then s.bpu.starve.get q else 0
  s.onBpu fun b =>
    { b with starve :=
        { tte := keep .tte, upstream := keep .upstream, pack := keep .pack, unpack := keep .unpack, ring := keep .ring } }

/-! ### Ring transfers (R154, R180, R181, R183, R187, R189) -/

/-- One of the map-page writes of a controller reset is made (R181). -/
def State.rewritten (s : State) : State := s.onBpu fun b => { b with rewrites := b.rewrites - 1 }

/-- The record of the oldest pending item is written at the tail; the status write that raises the tail is asked (R187). -/
def State.writeRecord (s : State) : State :=
  let s1 := s.onCw fun c => { c with recordAsked := false }
  match s.cw.pending with
  | [] => s1
  | i :: rest =>
    if s.ringSlots .completion 32 = 0 then s1
    else
      let s2 := s1.onDram fun m => Memory.writeBytes m (s.ringAddr .completion 32 s.cw.tail) (i.bytes s.free)
      let s3 := { s2 with free := s2.free + 16 }
      (s3.onCw fun c =>
        { c with pending := rest, tailDue := some i
                 slotKinds := (c.slotKinds.filter fun e => e.1 != c.tail) ++ [(c.tail, i.cmd.isNone)] }).askStatus

/-- The status write that carries a tail raise advances the tail; the command leaves the outstanding list and intake may
resume (R183, R187). -/
def State.raiseTail (s : State) : State :=
  match s.cw.tailDue with
  | none => s
  | some i =>
    let n := s.ringSlots .completion 32
    let s1 := s.onCw fun c => { c with tail := if n = 0 then c.tail else (c.tail + 1) % n, tailDue := none }
    match i.cmd with
    | some id => (s1.onCi fun c => { c with outstanding := c.outstanding.filter (·.id != id) }).askPost
    | none => s1

/-- The part status block is written whole (R188, R189). -/
def State.writeStatus (s : State) : State :=
  let s1 := s.raiseTail
  let bytes := s1.statusBytes
  let s2 := s1.onDram fun m => Memory.writeBytes m (Config.mapPage + 384) bytes
  ((s2.onCw fun c => { c with shown := bytes, statusAsked := false }).judgeAttn).tryRecord

/-- The CI-unit reads the post word at the intake index; a valid one is taken if there is room (R183). -/
def State.readPostWord (s : State) : State :=
  if s.ringSlots .command 64 = 0 then s
  else
    let word := s.seenBytes (s.ringAddr .command 64 s.ci.intake + 56) 8
    if bitOf (word.getD 7 0) 0 && decide (s.ci.outstanding.length < Config.maxOutstanding)
        && !s.bpu.ring.contains .readSlot then s.askRing .readSlot else s

/-- The slot's bytes are read and the command is taken (R182, R183). -/
def State.takeSlot (s : State) : State :=
  let n := s.ringSlots .command 64
  if n = 0 ∨ Config.maxOutstanding ≤ s.ci.outstanding.length then s
  else
    let a := s.ringAddr .command 64 s.ci.intake
    let slot := s.seenBytes a 64
    let post := slot.drop 56
    let cleared := post.take 7 ++ [(post.getD 7 0) &&& 0xFE#8]
    let s1 := (s.askRing (.clearPost (a + 56) cleared)).onCi fun c => { c with intake := (c.intake + 1) % n }
    s1.askPost.takeCmd (BitVec.ofNat 16 (fieldAt post 2 2)) (post.getD 1 0) (postMalformed post)
      (decodeCmd (fieldAt post 0 1) (slot.take 56))

/-- A taken slot's post word is written back with valid clear; a post that waits in a line for it is overwritten (R183; log
entry 19). -/
def State.clearPostWord (s : State) (a : Nat) (bytes : List Byte) : State :=
  (s.onDram fun m => Memory.writeBytes m a bytes).onBpu fun b =>
    { b with upstream := b.upstream.map fun r =>
        match r with
        | .line block l => if block = a then .line block [] else .line block l
        | .access x => .access x }

/-- The transfer a ring request makes. A zero written over a head or the mask is captured with it, so that the captured
values and DRAM agree (R158, R190; log entry 63). -/
def State.doRing (s : State) : RingReq → State
  | .zeroDescriptor i => (s.captureWrite (16 * i) (zeros 16)).rewritten
  | .zeroWord off =>
    let s1 := (s.onDram fun m => Memory.writeBytes m (Config.mapPage + off) (zeros 4)).captureWord off
    if off = 268 then s1.rewritten else s1
  | .completion => s.writeRecord
  | .status => s.writeStatus
  | .sensor i bytes => s.writeSensor i bytes
  | .clearPost a bytes => s.clearPostWord a bytes
  | .readPost => s.readPostWord
  | .readSlot => s.takeSlot

/-! ### The grant -/

/-- The oldest upstream request is served: a posted line writes its marked bytes, an access is performed (R177, R179). -/
def State.doUpstream (s : State) : State :=
  match s.bpu.upstream with
  | [] => s
  | r :: rest =>
    let s1 := s.onBpu fun b => { b with upstream := rest }
    match r with
    | .line block bytes => s1.onDram fun m => Memory.writeMarked m block bytes
    | .access a => s1.performAccess a

/-- The oldest ring request is served (R179). -/
def State.doOldestRing (s : State) : State :=
  match s.bpu.ring with
  | [] => s
  | r :: rest => (s.onBpu fun b => { b with ring := rest }).doRing r

/-- The transfer of the requester granted. -/
def State.serve (s : State) : Requester → State
  | .tte => (s.tteWork.map s.doTteWork).getD s
  | .upstream => s.doUpstream
  | .pack => (s.packWork.map s.doPackWork).getD s
  | .unpack => (s.unpackWork.map s.fetchCoded).getD s
  | .ring => s.doOldestRing

/-- One past the last byte that the granted requester's transfer can touch; 0 where it names no address. -/
def State.reach (s : State) : Requester → Nat
  | .tte =>
    match s.tteWork with
    | some (.fetch i _) => s.slotBase i + Config.stripeSize
    | some (.store i _) => s.slotBase i + Config.stripeSize
    | none => 0
  | .pack =>
    match s.packWork with
    | some (.seal j) => ((j.writes.map fun w => w.1 + w.2.length).max?).getD 0
    | some (.bytes i) => s.slotBase i + Config.stripeSize
    | some (.entry i) => s.slotBase i + Config.stripeSize
    | none => 0
  | .unpack => ((s.unpackWork.map fun d => s.slotBase d.slot + Config.stripeSize)).getD 0
  | .ring =>
    match s.bpu.ring.head? with
    | some .completion => s.ringAddr .completion 32 s.cw.tail + 32
    | some (.sensor _ _) => s.ringAddr .sensor 32 s.ss.tail + 32
    | some (.clearPost a _) => a + 8
    | some .readPost => s.ringAddr .command 64 s.ci.intake + 64
    | some .readSlot => s.ringAddr .command 64 s.ci.intake + 64
    | _ => 0
  | .upstream => 0

/-- One grant (R179). -/
def State.grant (s : State) (r : Requester) : State := (s.countGrant r).serve r

/-- An access of the initiator waits at place 2 of the arbiter, and nothing else waits there. -/
def State.waitsAlone (s : State) (who : Initiator) : Bool :=
  match s.bpu.upstream with
  | [.access a] => a.who == who
  | _ => false

/-- An access that the arbiter would grant as it arrives is granted in the same step (log entry 11). -/
def State.grantAtOnce (s : State) (a : Access) : State :=
  if s.waitsAlone a.who = true ∧ s.choice = some .upstream then s.grant .upstream else s

end Sys2Proof.Machine
end

