-- ==== Sys2Proof/Machine/Settle.lean ====
section
/-! DEFINITION. What follows of itself inside a step once its cause has acted: queues served, the coder going on, waiting
requests taken, clearing settled, UNLOAD's stages (chapters 2 to 7 and 12). Each reaction acts on its condition or answers
`none`. -/

namespace Sys2Proof.Machine

/-! ### The coder (R52 to R55, R78) -/

/-- An item at the front of the intake order is begun (R55). -/
def State.reactItem (s : State) : Option State :=
  match s.pe.intake.head? with
  | some c => if s.pe.coder = .idle ∧ c.synced = false ∧ c.placed < c.lengths.length then some (s.onPe Pe.beginItem) else none
  | none => none

/-- EMITTING with an entry to begin, or with the item's last entry placed by a sealing write (R22, R40, R52). -/
def State.reactEmit (s : State) : Option State :=
  if s.pe.coder = .emitting ∧ s.pe.entryOpen = false then
    match s.pe.emit with
    | .begin_ => some s.tryBegin
    | .entry => if s.spm.entryWaits then none else some s.itemDone
    | .place => none
  else none

/-- A WRITE_MARK with sync that waits as FLUSH does completes with FLUSH's details (R75, R78; log entry 54). -/
def State.endSync (s : State) (id : Nat) (r : Result) : State :=
  ((s.onPe fun p => { p with intake := p.intake.tail }).complete id r s.flushDetails.1 s.flushDetails.2).onRg fun g =>
    { g with flushed := true }

/-- The write side has emptied, or failed and settled, under a WRITE_MARK with sync (R75, R78). -/
def State.reactSync (s : State) : Option State :=
  match s.pe.intake.head? with
  | some c =>
    if c.synced = false then none
    else if s.spm.direction = .writeOpen ∧ s.spm.clearing = false ∧ s.spm.writeEmpty = true then
      some (s.endSync c.id (okOr s.earlyWarning))
    else if s.spm.direction = .writeFailed ∧ s.writingDone = true then some (s.endSync c.id s.causeResult)
    else none
  | none => none

/-! ### Slots asked for reading (R18, R29, R86, R91) -/

/-- A waiting request for a slot to read into, or for a failure marker, is taken (R18). -/
def State.reactSlot (s : State) : Option State :=
  match s.tte.read with
  | some r =>
    if r.markerAsked then (s.freeFor .readFailed).map s.placeMarker
    else if r.asked && r.reception.isNone && s.tte.loopback.isNone && (s.freeFor .reading).isSome then r.point.map s.askSlot
    else none
  | none => none

/-- The tape stands ready for a start of reading that was asked for: it is made at once if a slot is FREE, else it waits for
the threshold (R114). -/
def State.reactAsk (s : State) : Option State :=
  if s.rg.readStart = .asked ∧ s.mc.state = .ready ∧ s.mc.thermal = .normal then
    some (s.onRg fun r => { r with readStart := if 1 ≤ s.freeCount then .atOnce else .threshold })
  else none

/-! ### Sessions that end (R35, R74, R81, R186) -/

/-- A session's streaming is over: the tape decelerates (R74, R81). -/
def State.reactStreamOver (s : State) : Option State :=
  if s.mc.state = .streaming ∧ s.mc.slowing = false ∧ s.writingDone = true ∧ s.tte.read = none
      ∧ (s.spm.direction ≠ .writeOpen ∨ s.spm.clearing = true) then
    some ((s.onTte fun t => { t with runOn := none, underrun := false }).onMc Mc.decelerate)
  else none

/-- A cleared write side has emptied: the direction becomes NONE (R35, R81). What the Pack Engine took while the ABORT
settled was never placed; it is discarded as the ABORT discards (R40, R56; log entry 28). -/
def State.reactCleared (s : State) : Option State :=
  if s.spm.clearing = true ∧ s.spm.direction ≠ .readOpen ∧ s.spm.writeEmpty = true ∧ s.writingDone = true then
    some s.abortPack.leaveWrite
  else none

/-- Waiting ABORTs complete together once everything has settled (R186). -/
def State.reactAborts (s : State) : Option State :=
  if s.ci.aborts ≠ [] ∧ s.abortSettled = true then some s.completeAborts else none

/-! ### LOAD and UNLOAD (R35, R117, R118) -/

/-- The load read that waited for the link begins (R136). -/
def State.reactLoad (s : State) : Option State :=
  match s.mc.job with
  | some j => if j.kind = .load ∧ j.stage = .memory ∧ s.cml.op = none then some s.askLoadRead else none
  | none => none

/-- UNLOAD's stage "emptying" for the direction it finds (R35, R118). -/
def State.unloadEmptying (s : State) (j : Job) : Option State :=
  match s.spm.direction with
  | .writeOpen => if s.spm.writeEmpty && s.writingDone && !s.spm.clearing then some s.leaveWrite else none
  | .writeFailed => if s.spm.clearing then none else some s.unloadPool
  | .none => if s.cml.op.isNone then some (s.setJob { j with stage := .saving }).beginSave else none
  | .readOpen => none

/-- UNLOAD goes on to its next stage (R118). -/
def State.reactUnload (s : State) : Option State :=
  match s.mc.job with
  | none => none
  | some j =>
    if j.kind ≠ .unload then none
    else
      match j.stage with
      | .intake => if s.pe.intake.isEmpty then some (s.triggerSeal.setJob { j with stage := .emptying }) else none
      | .emptying => s.unloadEmptying j
      | .rewinding =>
        if s.mc.state = .ready then some (s.onMc fun m => m.shuttle { pass := 0, mark := 0 }) else none
      | _ => none

/-! ### Settling -/

/-- The first reaction whose condition stands. Held accesses come first: they are examined again at every change, before
anything that follows of it changes the engines once more (R42, R96, R98). -/
def State.react (s : State) : Option State :=
  [State.releaseHeld, State.reactItem, State.reactEmit, State.reactSync, State.reactSlot, State.reactAsk, State.serveData,
    State.reactStreamOver, State.reactCleared, State.reactAborts, State.reactLoad, State.reactUnload, State.serveConfig,
    State.serveMotion].findSome? fun f => f s

/-- Reactions run until none stands. -/
def State.settle : Nat → State → State
  | 0, s => s
  | n + 1, s =>
    match s.react with
    | some t => State.settle n t
    | none => s

/-- The end of a step: reactions, counts of requesters that no longer wait, and the status write that changed fields ask
(R179, R189). -/
def State.finish (s : State) : State := ((s.settle 64).dropCounts).noticeStatus

/-- Nothing follows of itself. -/
def State.Quiet (s : State) : Prop := s.react = none

/-- An upstream access arrives (R171, R176); the row of an initiator with one in progress changes nothing (log entry 2). -/
def State.arrive (s : State) (a : Access) : State :=
  if s.busy a.who then s else ((s.arriveAt a).grantAtOnce a).finish

end Sys2Proof.Machine
end

