-- ==== Sys2Proof/Machine/Clock.lean ====
section
/-! DEFINITION. The model's clock (log entry 1) and the outcome of a row. -/

namespace Sys2Proof.Machine

/-- `n` ticks pass: every timer that runs comes `n` ticks nearer its end. -/
def State.elapse (s : State) (n : Nat) : State :=
  let s1 := { s with now := s.now + n }
  let s2 := s1.onBpu fun b => { b with held := b.held.map fun h => { h with timer := h.timer.map (· - n) } }
  let s3 := s2.onSpm fun m => { m with sealTimer := m.sealTimer.map (· - n) }
  let s4 := s3.onMc fun m =>
    { m with thread := m.thread.map fun t => { t with timer := t.timer - n }, recovery := m.recovery.map (· - n) }
  let s5 := s4.onCml fun c => { c with op := c.op.map fun o => { o with wait := o.wait.map (· - n) } }
  s5.onSs fun x => { x with period := x.period - n }

/-- What a row answers. -/
abbrev RowOutcome := Host.Outcome State Fault Refusal

/-- The row's effect and what follows of itself. -/
def State.done (s : State) : RowOutcome := .next s.finish

/-- The row's condition does not stand: nothing changes (log entry 2). -/
def State.unchanged (s : State) : RowOutcome := .next s

end Sys2Proof.Machine
end

