-- ==== Sys2Proof/Machine/Coding.lean ====
section
/-! DEFINITION. The rows of the Pack Engine's coder and of the FILLING slot (chapters 2 and 3). -/

namespace Sys2Proof.Machine

/-- CODER_TAKE_BYTES (R44 to R51, R55): in COLLECTING. -/
def execCoderTakeBytes (n : Nat) (s : State) : RowOutcome :=
  if s.pe.coder = .collecting then (s.onPe fun p => p.takeBytes n).done else s.unchanged

/-- FILLING_SLOT_TAKEN (R18, R21). -/
def execFillingSlotTaken (s : State) : RowOutcome :=
  match s.fillingWanted with
  | some i => (s.takeFilling i).done
  | none => s.unchanged

/-- SEAL_TIMER_EXPIRY (R22, R24): the rest of the interval passes, the slot is sealed, and the timer does not run again until the
next FILLING slot. A slot whose sealing writes are under way is sealed once (R23). -/
def execSealTimerExpiry (s : State) : RowOutcome :=
  match s.spm.sealTimer with
  | some n => ((s.elapse n).triggerSeal.onSpm fun m => { m with sealTimer := none }).done
  | none => s.unchanged

end Sys2Proof.Machine
end

