-- ==== Sys2Proof/Machine/Commands.lean ====
section
/-! DEFINITION. The rows of the host's commands (R182 to R186): the CI-unit takes the command with this tag and these flags,
valid being implied (log entry 3). -/

namespace Sys2Proof.Machine

/-- A command taken through a row (R183, R184). -/
def State.command (s : State) (tag : BitVec 16) (flags : BitVec 8) (cmd : HostCmd) : State :=
  (s.takeCmd tag flags (flagsMalformed flags) cmd).finish

/-- SET_POOL, code 1 (R32). -/
def execSetPool (tag : BitVec 16) (flags : BitVec 8) (n : BitVec 16) (s : State) : RowOutcome :=
  .next (s.command tag flags (.setPool n.toNat))

/-- SET_COMPRESSION, code 2 (R45). -/
def execSetCompression (tag : BitVec 16) (flags : BitVec 8) (setting : BitVec 8) (s : State) : RowOutcome :=
  .next (s.command tag flags (.setCompression setting.toNat))

/-- SET_SEAL_INTERVAL, code 3 (R24). -/
def execSetSealInterval (tag : BitVec 16) (flags : BitVec 8) (seconds : BitVec 16) (s : State) : RowOutcome :=
  .next (s.command tag flags (.setSealInterval seconds.toNat))

/-- SENSOR_PLAN, code 4 (R155, R156). -/
def execSensorPlan (tag : BitVec 16) (flags : BitVec 8) (plan : PlanArgs) (s : State) : RowOutcome :=
  .next (s.command tag flags (.sensorPlan plan))

/-- SET_HEALTH, code 5 (R166). -/
def execSetHealth (tag : BitVec 16) (flags : BitVec 8) (ci : BitVec 16) (s : State) : RowOutcome :=
  .next (s.command tag flags (.setHealth ci.toNat))

/-- QUERY_HEALTH, code 6 (R167). -/
def execQueryHealth (tag : BitVec 16) (flags : BitVec 8) (s : State) : RowOutcome :=
  .next (s.command tag flags .queryHealth)

/-- LOOPBACK, code 7 (R170). -/
def execLoopback (tag : BitVec 16) (flags : BitVec 8) (slot : BitVec 16) (s : State) : RowOutcome :=
  .next (s.command tag flags (.loopback slot.toNat))

/-- LOAD, code 16 (R117). -/
def execLoad (tag : BitVec 16) (flags : BitVec 8) (s : State) : RowOutcome :=
  .next (s.command tag flags .load)

/-- UNLOAD, code 17 (R118, R119). -/
def execUnload (tag : BitVec 16) (flags : BitVec 8) (s : State) : RowOutcome :=
  .next (s.command tag flags .unload)

/-- REWIND, code 18 (R120). -/
def execRewind (tag : BitVec 16) (flags : BitVec 8) (s : State) : RowOutcome :=
  .next (s.command tag flags .rewind)

/-- LOCATE, code 19 (R126 to R128). -/
def execLocate (tag : BitVec 16) (flags : BitVec 8) (kind : BitVec 8) (target : BitVec 32) (s : State) : RowOutcome :=
  .next (s.command tag flags (.locate kind.toNat target.toNat))

/-- LOCATE_EOD, code 20 (R129, R130). -/
def execLocateEod (tag : BitVec 16) (flags : BitVec 8) (s : State) : RowOutcome :=
  .next (s.command tag flags .locateEod)

/-- SPACE, code 21 (R131, R132). -/
def execSpace (tag : BitVec 16) (flags : BitVec 8) (kind : BitVec 8) (count : BitVec 32) (s : State) : RowOutcome :=
  .next (s.command tag flags (.space kind.toNat count.toInt))

/-- OPEN_WRITE, code 32 (R62 to R64). -/
def execOpenWrite (tag : BitVec 16) (flags : BitVec 8) (s : State) : RowOutcome :=
  .next (s.command tag flags .openWrite)

/-- STREAM_RECORD, code 33 (R38). -/
def execStreamRecord (tag : BitVec 16) (flags : BitVec 8) (count : BitVec 8) (lengths : List (BitVec 32)) (s : State) :
    RowOutcome :=
  .next (s.command tag flags (.streamRecord count.toNat (lengths.map (·.toNat))))

/-- WRITE_MARK, code 34 (R39). -/
def execWriteMark (tag : BitVec 16) (flags : BitVec 8) (count : BitVec 8) (sync : BitVec 8) (s : State) : RowOutcome :=
  .next (s.command tag flags (.writeMark count.toNat sync.toNat))

/-- FLUSH, code 35 (R78). -/
def execFlush (tag : BitVec 16) (flags : BitVec 8) (s : State) : RowOutcome :=
  .next (s.command tag flags .flush)

/-- OPEN_READ, code 36 (R84, R85). -/
def execOpenRead (tag : BitVec 16) (flags : BitVec 8) (s : State) : RowOutcome :=
  .next (s.command tag flags .openRead)

/-- DELIVER_RECORD, code 37 (R94). -/
def execDeliverRecord (tag : BitVec 16) (flags : BitVec 8) (length : BitVec 32) (s : State) : RowOutcome :=
  .next (s.command tag flags (.deliverRecord length.toNat))

/-- CLOSE, code 48 (R33). -/
def execClose (tag : BitVec 16) (flags : BitVec 8) (s : State) : RowOutcome :=
  .next (s.command tag flags .close)

/-- ABORT, code 49 (R186). -/
def execAbort (tag : BitVec 16) (flags : BitVec 8) (s : State) : RowOutcome :=
  .next (s.command tag flags .abort)

/-- LOOPBACK_REPORT (R170): the report of an image sent whole completes LOOPBACK; the header is judged without its place. -/
def execLoopbackReport (header : HeaderRead) (counts : Counts) (s : State) : RowOutcome :=
  match s.tte.loopback with
  | some l =>
    if l.sent < Config.stripeSize then s.unchanged
    else
      let valid := header.valid && headerFieldsOk header.bytes
      let s1 := s.onTte fun t => { t with loopback := none, fifo := [] }
      (s1.complete l.cmd .ok (dv 1 (if valid then 1 else 0) ++ dv 2 counts.rows ++ dv 1 counts.maxCorrected ++ du 4)
        (dv 4 (if valid then fieldAt header.bytes 0 4 else Config.absent32) ++ du 4)).done
  | none => s.unchanged

end Sys2Proof.Machine
end

