-- ==== Sys2Proof/Machine/Marks.lean ====
section
/-! DEFINITION. The mark timer (R121, R122): counting, judging intervals, and the matches of its targets; the row MARK_EVENT
and the rows that depend on what it counts. -/

namespace Sys2Proof.Machine

/-! ### Counting and judging (R121, R122) -/

/-- The mark count after a mark is captured; the first one after a start off the usable end is its first mark (log entry 20).
A mark of the trailer or the leader, past the end of the usable length, leaves the count at 60,000 or 0: R1 clamps computed
targets only (DESIGN CHOICE, log entry 50). -/
def Mc.countMark (m : Mc) : Mc :=
  if m.runIn then { m with runIn := false }
  else
    { m with pos := m.pos.map fun p =>
        match m.travel with
        | .forward => { p with mark := min Config.lastMark (p.mark + 1) }
        | .reverse => { p with mark := p.mark - 1 }
        | .stopped => p }

/-- The interval is within 5% of the one expected: 15 mm at `speed` tenths of m/s is 60,000 / speed ticks (R121, R122). -/
def intervalOk (ticks speed : Nat) : Bool := decide (57000 ≤ ticks * speed) && decide (ticks * speed ≤ 63000)

/-- The states whose intervals are judged, unless the tape decelerates (R122). -/
def Mc.judging (m : Mc) : Bool :=
  !m.slowing && (m.state == .streaming || m.state == .moving || m.state == .cleaning)

/-- An interval judged (R122). -/
def Mc.judge (m : Mc) (ok : Bool) : Mc :=
  if ok then
    let n := min 16 (m.inRun + 1)
    { m with offRun := 0, inRun := n, speedFaults := if n = 16 then 0 else m.speedFaults }
  else { m with offRun := min 16 (m.offRun + 1), inRun := 0 }

/-- A captured mark is timed: judged at speed; during acceleration the first interval within 5% ends it; the intervals of a
change of speed are not judged (R122; log entry 21). -/
def Mc.time (m : Mc) (now : Nat) (changing : Bool) : Mc :=
  let n := { m with lastMark := some now }
  match m.lastMark with
  | none => n
  | some t =>
    if m.judging && !changing then
      let ok := intervalOk (now - t) m.speed
      if m.atSpeed then n.judge ok else { n with atSpeed := ok }
    else n

/-- The run-on comes one mark nearer its end (R69). -/
def Tte.runMark (t : Tte) : Tte := { t with runOn := t.runOn.map (· - 1) }

/-! ### Matches (R121) -/

/-- The target of a purpose matches at the place the count stands at (R121). Nothing matches while the tape decelerates to a stop
(DESIGN CHOICE, log entry 103). -/
def Mc.matched (m : Mc) (p : Purpose) : Bool :=
  match m.pos, m.target p with
  | some q, some k =>
    q.mark == k && !m.slowing && (m.travel == passTravel q.pass || p == .passEnd || p == .locateStop)
  | _, _ => false

/-- The speed at the next position (R90, R103). -/
def State.nextSpeed (s : State) : Nat := s.readSpeed

/-- The mark that comes ends the gap mark in which the speed changes, or begins it (R103, R122). -/
def State.changing (s : State) : Bool :=
  s.mc.state == .streaming && s.nextSpeed != s.mc.speed
    && (match s.mc.pos, s.mc.target .startMark with
        | some p, some k => decide ((p.onward 1).mark ≤ k + 1) && decide (k ≤ (p.onward 1).mark + 1)
        | _, _ => false)

/-- The position whose start mark passes is taken at its level; a level set since then waits for the next one (R103). -/
def State.takeSpeed (s : State) : State :=
  (s.onMc fun m => { m with speed := s.readSpeed, atSpeed := true }).onRg fun r => { r with held := none }

/-- The start mark while writing: the armed stripe's transfer begins, or the run-on over this position (R67, R69, R109). A
position whose arming a LOOPBACK holds back (R170) is run over too, and the tape stops after it with the stop kind NONE (DESIGN
CHOICE, log entry 81). -/
def State.startWriting (s : State) : State :=
  match s.tte.inFlight with
  | some f => if f.transfer then s else (s.startTransfer f).takeSpeed
  | none => if s.tte.runOn.isNone then (s.runOver Config.positionMarks).takeSpeed else s

/-- The reception whose slot is READING begins, and the read point advances (R86). -/
def State.startReception (s : State) (x : Reception) : State :=
  let next := x.pos.nextPosition
  let s1 := s.onRead fun r => { r with reception := some { x with started := true }, point := some next }
  (s1.onMc fun m => m.loadStart next).takeSpeed

/-- The start mark while reading, after a report that did not come has been ruled (R86, R87). With a retry or a marker due
the tape repositions to the position it does not read (log entry 22). A position whose reading a LOOPBACK holds back (R170) counts
as one without a FREE slot, whatever the FREE count: backpressure, with its reposition and penalty (DESIGN CHOICE, log entry
81). -/
def State.startReading (s : State) : State :=
  let s1 := s.ruleMissing
  match s1.tte.read with
  | none => s1
  | some r =>
    match r.reception with
    | some x => s1.startReception x
    | none =>
      match r.point with
      | none => s1
      | some p =>
        if r.retryDue || r.markerAsked then s1.readReposition .none .threshold
        else if r.eod.isSome then s1
        else if s1.tte.loopback.isSome then s1.blocked r
        else
          let s2 := s1.askSlot p
          match s2.tte.read.bind (·.reception) with
          | some x => s2.startReception x
          | none => s2.blocked r

/-- The start mark's match. -/
def State.atStartMark (s : State) : State :=
  let s1 := s.onMc fun m => m.dropTarget .startMark
  if s.mc.state = .streaming then (if s.tte.read.isSome then s1.startReading else s1.startWriting) else s1

/-- The end of a pass while writing: the tape turns, or on pass 63 the run-on is over the rest of the tape (R66, R69, R80,
R121). It turns also where WRITE_FAILED or an ABORT settles; nothing is armed any more then, and the write point stays where it
is (R66, R69, R81; log entry 35). A run-on over the last position of the pass ends here: RUN_ON_END makes what follows it, and
the write point keeps that position, which the next start writes (R65, R69). At the end of pass 63 no position comes up that
R110's test could be made at: an empty write queue under no FLUSH makes the run-on there an underrun all the same (DESIGN
CHOICE, log entry 93). -/
def State.endWritingPass (s : State) (p : TapePos) : State :=
  if s.tte.runOn.isSome then s
  else
    let s1 := s.channelEnd
    if p.pass < Config.lastPass then (if s1.arming then s1.writeTurn p else s1.turnWriting) else s1.runOver 0

/-- The end of a pass while reading (R86). A reception whose report is still due stays in flight over the turnaround: its
deadline is the start mark of the next pass's first position (R87); at end of media `readTurn` rules it. -/
def State.endReadingPass (s : State) (p : TapePos) : State :=
  match s.tte.read with
  | some r => if r.going then s.readTurn p else s
  | none => s

/-- The end of a pass in a header search (R5, R121, R125). -/
def State.endSearchPass (s : State) (p : TapePos) : State :=
  match s.mc.job with
  | none => s
  | some j =>
    match j.search with
    | none => s
    | some x => if p.pass < Config.lastPass then s.onMc Mc.turn else s.searchAtMediaEnd j x

/-- The pass-end match (R121): streaming or a header search on the pass ends; in any other movement nothing follows. -/
def State.atPassEnd (s : State) (p : TapePos) : State :=
  let s1 := s.onMc fun m => m.dropTarget .passEnd
  match s.mc.state with
  | .streaming => if s.tte.read.isSome then s1.endReadingPass p else s1.endWritingPass p
  | .moving => if (s.mc.job.map (·.stage)) = some .searching then s1.endSearchPass p else s
  | _ => s

/-- The matches of one captured mark (R4, R121): the early-warning condition is read off the position itself. -/
def State.matches_ (s : State) : State :=
  let atStart := s.mc.matched .startMark
  let atEnd := s.mc.matched .passEnd
  let stop := s.mc.matched .locateStop
  let place := s.mc.pos.getD { pass := 0, mark := 0 }
  let s1 := if atStart then s.atStartMark else s
  let s2 := if atEnd then s1.atPassEnd place else s1
  if stop then s2.onMc Mc.decelerate else s2

/-- A servo mark passes the head (R121, R122, R162). -/
def State.mark (s : State) : State :=
  let s1 := s.onMc fun m => (m.time s.now s.changing).runBack.countMark
  ((s1.markWear).onTte Tte.runMark).matches_

/-- Marks pass the head: the tape travels in a threaded state, or is unthreaded, which shows the travel direction STOPPED (R115,
R121; log entries 115 and 116). A FAULT or STRANDED tape travels in a slow recovery only (R119). -/
def Mc.marksPass (m : Mc) : Bool := m.state.running && (m.travel != .stopped || m.state == .unthreading)

/-- MARK_EVENT (R121): the mark is captured, counted where the place is known and the tape travels, and reported. -/
def execMarkEvent (wait : Nat) (s : State) : RowOutcome :=
  if s.mc.marksPass then (s.elapse wait).mark.done else s.unchanged

/-! ### Rows that follow from the count -/

/-- WEAR_STEP (R162): the accumulator wraps, and the marks that waited are counted. -/
def execWearStep (s : State) : RowOutcome :=
  match s.hm.waiting with
  | 0 => s.unchanged
  | n + 1 => ((s.onHm fun h => { h with wear := n, waiting := 0 }).setIndex (s.hm.ci + 1) 1).done

/-- RUN_ON_END (R69, R72, R110). -/
def execRunOnEnd (s : State) : RowOutcome :=
  if s.tte.runOn = some 0 then s.endRunOn.done else s.unchanged

/-- The first speed fault (R114, R122): streaming repositions to the write or read point and asks for a start; another move
stops to go on from there. Both runs of intervals start at 0 again, so that a second fault needs another 16 (DESIGN CHOICE, log
entry 122). -/
def State.firstSpeedFault (s : State) : State :=
  let s1 := s.onMc fun m => { m with speedFaults := 1, offRun := 0, inRun := 0 }
  if s.mc.state = .streaming then
    if s.tte.read.isSome then s1.readReposition .none .asked
    else s1.cutWriting.reposition
  else s1.onMc fun m => { m.decelerate with resume := true }

/-- SPEED_FAULT (R122, R169). -/
def execSpeedFault (s : State) : RowOutcome :=
  if s.mc.judging = true ∧ 16 ≤ s.mc.offRun then
    (if s.mc.speedFaults = 0 then s.firstSpeedFault else s.enterFault 1 .motionFault noDetail).done
  else s.unchanged

end Sys2Proof.Machine
end

