-- ==== Sys2Proof/Machine/Motion.lean ====
section
/-! DEFINITION. The rows that move the tape (chapters 6 and 7): starts, turnarounds, repositions, stops and header reports. -/

namespace Sys2Proof.Machine

/-! ### Turnarounds (R121, R134) -/

/-- Streaming goes on across a turnaround for writing (R66, R114). -/
def State.writeOn (s : State) : State :=
  match s.tte.writePoint with
  | some p =>
    s.onMc fun m =>
      ({ m with state := .streaming, speed := Config.levelSpeed s.rg.level, atSpeed := false, lastMark := none } : Mc).loadStart p
  | none => s.onMc fun m => m.halt .ready

/-- Streaming goes on across a turnaround for reading, unless it has ended or is held (R86, R92, R114, R133). Under a thermal
pause that came in the turnaround, a reception whose report is still due stays in flight in READY until its report or the next
start mark (R87; DESIGN CHOICE, log entry 113). -/
def State.readOn (s : State) (r : ReadState) : State :=
  match r.point with
  | some p =>
    if r.going && s.mc.thermal == .normal then
      s.onMc fun m =>
        ({ m with state := .streaming, speed := s.readSpeed, atSpeed := false, lastMark := none } : Mc).loadStart p
    else s.onMc fun m => m.halt .ready
  | none => s.onMc fun m => m.halt .ready

/-- The new pass is reached: the header search, the session, or nothing goes on (R115, R121, R134). -/
def State.turned (s : State) : State :=
  let s1 := (if s.tte.runOn.isSome then s.endRunOn else s).onMc Mc.onNewPass
  match s1.mc.job.bind (·.finish), s1.mc.job with
  | f, some j =>
    if j.stage = .finishing then s1.endJob j (f.getD (Finish.bare .aborted))
    else if j.stage = .searching then s1.onMc fun m => m.readHeaders (m.pos.getD { pass := 0, mark := 0 })
    else if s1.arming && s1.mc.thermal == .normal then s1.writeOn
    else s1.onMc fun m => m.halt .ready
  | _, none =>
    match s1.tte.read with
    | some r => s1.readOn r
    | none => if s1.arming && s1.mc.thermal == .normal then s1.writeOn else s1.onMc fun m => m.halt .ready

/-- TURNAROUND_DONE (R121). -/
def execTurnaroundDone (s : State) : RowOutcome :=
  if s.mc.state = .turnaround then s.turned.done else s.unchanged

/-! ### Repositions and starts (R110 to R114) -/

/-- REPOSITION_READY (R110, R112). -/
def execRepositionReady (s : State) : RowOutcome :=
  if s.mc.state = .repositioning then (s.onMc fun m => m.halt .ready).done else s.unchanged

/-- A command waits for the write side to empty (R111). -/
def State.emptyingWaits (s : State) : Bool :=
  (match (s.ci.dataQueue.head?).bind s.taken with
    | some t => t.stage == .running && t.cmd == .flush
    | none => false)
  || (match s.pe.intake.head? with | some c => c.synced | none => false)
  || (match s.mc.job with | some j => j.kind == .unload && j.stage == .emptying | none => false)

/-- The tape stands ready for a start of the governor (R111, R115, R133). -/
def State.standsReady (s : State) : Bool :=
  s.mc.state == .ready && s.mc.thermal == .normal
    && (match s.mc.job with | some j => j.kind == .unload && (j.stage == .intake || j.stage == .emptying) | none => true)

/-- GOVERNOR_START (R65, R111, R113). -/
def execGovernorStart (s : State) : RowOutcome :=
  match s.tte.writePoint with
  | some p =>
    if s.arming = true ∧ s.standsReady = true ∧ s.startCondition s.emptyingWaits = true then
      let s1 := s.onRg Rg.startRun
      (s1.onMc fun m => m.stream p (Config.levelSpeed s1.rg.level)).done
    else s.unchanged
  | none => s.unchanged

/-- Enough slots are FREE for reading to start again (R90, R112, R114). -/
def State.readStartHolds (s : State) : Bool :=
  s.rg.readStart == .atOnce || (s.rg.readStart == .anyFree && decide (1 ≤ s.freeCount))
    || decide (s.spm.threshold ≤ s.freeCount)

/-- READ_AHEAD_RESUME (R85, R112 to R114). -/
def execReadAheadResume (s : State) : RowOutcome :=
  match s.tte.read.bind (·.point), s.tte.read with
  | some p, some r =>
    if r.going = true ∧ s.spm.direction = .readOpen ∧ s.standsReady = true ∧ s.mc.job = none ∧ s.readStartHolds = true then
      (s.startRead p).done
    else s.unchanged
  | _, _ => s.unchanged

/-! ### Stops (R120, R122, R125, R126, R168) -/

/-- A move cut by a speed fault, or a second attempt of a header search, goes on from where the tape stands (R122, R125); at
its target already, the tape only stops. -/
def State.resumeJob (s : State) (j : Job) : State :=
  match s.mc.target .locateStop, s.mc.pos with
  | some k, some p =>
    if s.mc.state = .cleaning then
      s.onMc fun m =>
        { m with slowing := p.mark == k, resume := false, atSpeed := false, lastMark := none
                 travel := if p.mark < k then .forward else if k < p.mark then .reverse else .stopped }
    else s.onMc fun m => m.shuttle { p with mark := k }
  | _, some p =>
    match j.search with
    | some x =>
      if j.stage = .toStart then s.onMc fun m => m.shuttle x.start
      else s.onMc fun m => { m.readHeaders p with targets := m.targets, runIn := false }
    | none => s.onMc fun m => m.halt m.state
  | _, none => s.onMc fun m => m.halt m.state

/-- The tape stands at the target of the move (R121). -/
def Mc.atTarget (m : Mc) : Mc :=
  match m.target .locateStop with
  | some k => { m with pos := m.pos.map fun p => { p with mark := k } }
  | none => m

/-- The cleaning run's rewind to mark 0 begins (R168). -/
def Mc.cleanRewind (m : Mc) : Mc :=
  ({ m with slowing := false, resume := false, travel := .reverse, speed := Config.shuttleSpeed, atSpeed := false,
            lastMark := none } : Mc).load 0 .locateStop

/-- A motion command's tape has stopped (R118, R120, R125, R126, R168). -/
def State.jobStopped (s : State) (j : Job) : State :=
  let s1 := s.onMc Mc.atTarget
  match j.stage with
  | .toStart =>
    match j.search with
    | some x => (s1.setJob { j with stage := .searching }).onMc fun m => m.readHeaders x.start
    | none => s1.endJob j (Finish.bare .locateFailed)
  | .toPlace => s1.endJob j (j.finish.getD (Finish.bare .ok))
  | .finishing => s.endJob j (j.finish.getD (Finish.bare .aborted))
  | .rewinding => (s1.onMc fun m => { m with dsPos := Finish.rewound.pos }).beginUnthread
  | .cleanRun =>
    ((s1.setJob { j with stage := .cleanRewind }).onHm fun h => { h with cleaning := .unthread }).onMc Mc.cleanRewind
  | .cleanRewind => s1.beginUnthread
  | _ => s.onMc fun m => m.halt .ready

/-- The tape has stopped (R92, R115, R118, R120, R168): one that streamed or repositioned stands in READY, whatever waits for
it there. -/
def State.stopped (s : State) : State :=
  if s.mc.state = .streaming ∨ s.mc.state = .repositioning then s.onMc fun m => m.halt .ready
  else
    match s.mc.job with
    | some j => if s.mc.resume then s.resumeJob j else s.jobStopped j
    | none => s.onMc fun m => m.halt .ready

/-- TAPE_STOPPED (R120): the tape was decelerating to a stop outside a reposition. -/
def execTapeStopped (s : State) : RowOutcome :=
  if s.mc.slowing then s.stopped.done else s.unchanged

/-! ### Header reports (R125) -/

/-- A report's header, if it is valid at its place (R8, R125). -/
def headerSeen (pos : TapePos) (h : HeaderRead) (flags : List Byte) : Option HeaderSeen :=
  if headerValidAt h.valid h.bytes pos then
    let x := Header.ofBytes h.bytes
    some { stripe := x.stripe, generation := x.generation, first := x.first, entries := x.entries, flags := flags, pos := pos }
  else none

/-- HEADER_REPORT (R125 to R132). A report that comes while the tape decelerates, as after a speed fault within the search, is
discarded (DESIGN CHOICE, log entry 114), and so is one for a pass's last position that comes in TURNAROUND, after the pass-end
match (DESIGN CHOICE, log entry 121). One that comes while a LOOPBACK that ran on across a LOAD still holds the read channel is
ruled as any other (R170; DESIGN CHOICE, log entry 129). -/
def execHeaderReport (pass mark : Nat) (blank : Bool) (header : HeaderRead) (entryFlags : List Byte) (s : State) : RowOutcome :=
  match s.mc.job, s.mc.job.bind (·.search) with
  | some j, some x =>
    if j.stage = .searching ∧ s.mc.state = .moving ∧ s.mc.slowing = false then
      (s.ruleReport j x blank (headerSeen { pass := pass, mark := mark } header entryFlags)).done
    else s.unchanged
  | _, _ => s.unchanged

end Sys2Proof.Machine
end

