-- ==== Sys2Proof/Machine/Reading.lean ====
section
/-! DEFINITION. The rows of reading back and of record delivery (chapter 5). -/

namespace Sys2Proof.Machine

/-- READ_POSITION_START (R86, R92). -/
def execReadPositionStart (s : State) : RowOutcome :=
  match s.tte.read.bind (·.point), s.tte.read with
  | some p, some r =>
    if s.mc.state = .streaming ∧ s.mc.slowing = false ∧ s.mc.thermal = .normal ∧ r.going = true ∧ r.reception = none
        ∧ r.asked = false ∧ s.tte.loopback = none then
      (if p.startable then s.askSlot p else s.readTurn p).done
    else s.unchanged
  | _, _ => s.unchanged

/-- RECEPTION_OVERRUN (R86): a byte finds the channel FIFO full. -/
def execReceptionOverrun (s : State) : RowOutcome :=
  match s.tte.read.bind (·.reception) with
  | some x =>
    if x.started = true ∧ Config.channelFifo ≤ s.tte.fifo.length then
      (s.onRead fun r => { r with reception := some { x with overrun := true } }).done
    else s.unchanged
  | none => s.unchanged

/-- RECEPTION_REPORT (R86 to R89): the delivered bytes are in the slot when it is ruled; a report for another position is discarded. -/
def execReceptionReport (pass mark : Nat) (blank headerValid : Bool) (counts : Counts) (s : State) : RowOutcome :=
  match s.tte.read, s.tte.read.bind (·.reception) with
  | some r, some x =>
    if x.started = true ∧ x.pos = { pass := pass, mark := mark } then
      let s1 := s.storeRest x
      let header := Memory.readBytes s1.dram (s1.slotBase x.slot) Config.headerSize
      (s1.rule r x (some (blank, headerValidAt headerValid header x.pos, counts))).done
    else s.unchanged
  | _, _ => s.unchanged

/-- The failure marker is asked for, and placed if a slot is FREE (R91). -/
def State.askMarker (s : State) : State :=
  let s1 := s.onRead fun r => { r with retryDue := false, markerAsked := true }
  match s1.freeFor .readFailed with
  | some i => s1.placeMarker i
  | none => s1

/-- RETRY_START (R90, R91): a retry begins, or after a fourth one the marker is asked for. -/
def execRetryStart (s : State) : RowOutcome :=
  match s.tte.read, s.tte.read.bind (·.window) with
  | some r, some w =>
    if r.retryDue = true ∧ s.mc.state ≠ .fault ∧ s.mc.job = none then
      (if r.inRetry = true ∧ 4 ≤ r.retries then s.askMarker else s.beginRetry r w).done
    else s.unchanged
  | _, _ => s.unchanged

/-- DELIVERY_SLOT_TAKEN (R30, R95). -/
def execDeliverySlotTaken (s : State) : RowOutcome :=
  if s.ue.state = .opening then s.tryOpen.done else s.unchanged

/-- DECODE_STEP (R59, R60, R93, R98). -/
def execDecodeStep (s : State) : RowOutcome :=
  match s.ue.record with
  | some d =>
    if d.passOver = false ∧ (s.ue.state = .open_ ∨ s.ue.state = .finishing) then (s.decodeRun d).done else s.unchanged
  | none => s.unchanged

/-- HANDOVER (R30, R97, R99). -/
def execHandover (s : State) : RowOutcome :=
  match s.handoverDue with
  | some d => (s.tryHandover d).done
  | none => s.unchanged

end Sys2Proof.Machine
end

