-- ==== Sys2Proof/Machine/Sampling.lean ====
section
/-! DEFINITION. The rows of the Sensor Sequencer (chapter 9). -/

namespace Sys2Proof.Machine

/-- SEQUENCE_START (R150): the rest of the period passes, and the timer restarts with the full period. -/
def execSequenceStart (s : State) : RowOutcome :=
  ((s.elapse s.ss.period).onSs fun x =>
    { x.startSequence with period := x.plan.period * Config.ticksPerMs }).done

/-- CONVERSION_DONE (R151 to R154, R123, R133). -/
def execConversionDone (raw : BitVec 12) (s : State) : RowOutcome :=
  match s.ss.sequence with
  | some q => (s.converted q raw.toNat).done
  | none => s.unchanged

end Sys2Proof.Machine
end

