-- ==== Sys2Proof/Machine/Threading.lean ====
section
/-! DEFINITION. The rows of power-on, the cartridge, its link and the threading of the tape (chapters 7 and 8). -/

namespace Sys2Proof.Machine

/-- POWER_ON_RESET (R116, R180): the queue, the model's clock and its free values go on, and the bytes of DRAM stay as they
were (R6; log entry 4). -/
def execPowerOnReset (present tapeInPath protected_ : Bool) (mem : List Host.Cell) (s : State) : RowOutcome :=
  .next { State.powerOn present tapeInPath protected_ (Memory.ofCells Config.cartridgeSize mem) with
          now := s.now, free := s.free, dram := s.dram, pending := s.pending }

/-- CARTRIDGE_INSERTED (R116). -/
def execCartridgeInserted (protected_ : Bool) (mem : List Host.Cell) (s : State) : RowOutcome :=
  if s.mc.state = .empty then
    let s1 := s.onPins fun p => { p with present := true, writeProtect := protected_ }
    let s2 := s1.onCartridge fun _ => Memory.ofCells Config.cartridgeSize mem
    ((s2.onMc fun m => { m with state := .present }).note .cartridgePresent noDetail noDetail).done
  else s.unchanged

/-- CARTRIDGE_REMOVAL (R116, R138, R148): the note, then the LOAD that it ends (DESIGN CHOICE, log entry 125). A removal during
the counter write discards the counters with every other copy (R138; of R148's 'as before' DESIGN CHOICE, log entry 73). -/
def execCartridgeRemoval (s : State) : RowOutcome :=
  if s.mc.state = .present then
    let s1 := (s.onPins fun p => { p with present := false }).onCartridge fun _ => []
    let s2 := (s1.onMc fun m => { m with state := .empty, job := none }).onCml fun _ => Cml.reset
    let s3 := (s2.onHm fun h => { h with cleaning := .none }).note .cartridgeRemoved noDetail noDetail
    match s.mc.job with
    | some j => (s3.complete j.id .threadFailed noDetail (dv 1 2 ++ du 7)).done
    | none => s3.done
  else s.unchanged

/-- I2C_TRANSACTION_DONE (R135, R136). -/
def execI2cTransactionDone (outcome : LinkOutcome) (s : State) : RowOutcome :=
  match s.cml.op with
  | none => s.unchanged
  | some op =>
    match op.wait, op.steps with
    | none, t :: rest => (s.linkOutcome op t rest outcome).done
    | _, _ => s.unchanged

/-- I2C_RETRY_WAIT_EXPIRY (R135): the rest of the 5 ms passes and the whole transaction is sent again. -/
def execI2cRetryWaitExpiry (s : State) : RowOutcome :=
  match s.cml.op.bind (·.wait) with
  | none => s.unchanged
  | some n => ((s.elapse n).onCml fun c => { c with op := c.op.map fun o => { o with wait := none } }).done

/-- SERVO_LOCK (R117, R168). -/
def execServoLock (s : State) : RowOutcome :=
  match s.mc.state, s.mc.thread with
  | .threading, some t => (match t.kind with | .data => s.threaded | .cleaning => s.threadedCleaning).done
  | _, _ => s.unchanged

/-- LEADER_NOT_CAPTURED (R117). -/
def execLeaderNotCaptured (tapeInPath : Bool) (s : State) : RowOutcome :=
  match s.mc.state, s.mc.thread with
  | .threading, some t => (s.attemptFailed t tapeInPath 0).done
  | _, _ => s.unchanged

/-- THREAD_TIMEOUT (R117): the rest of the attempt's 8 s passes. -/
def execThreadTimeout (tapeInPath : Bool) (s : State) : RowOutcome :=
  match s.mc.state, s.mc.thread with
  | .threading, some t => ((s.elapse t.timer).attemptFailed t tapeInPath 1).done
  | _, _ => s.unchanged

/-- Tension is up (R119, R123): a slow recovery goes on to wind the tape toward the leader. -/
def Mc.tensionIsUp (m : Mc) : Mc :=
  let n := { m with tensionUp := true, tensionFaults := 0 }
  match m.job with
  | some j =>
    if j.stage = .recoverTension then
      { n with job := some { j with stage := .recoverWind }, recovery := none, travel := .reverse, speed := Config.levelSpeed 0 }
    else n
  | none => n

/-- TENSION_UP (R119, R123): judging ends when unthreading begins. -/
def execTensionUp (s : State) : RowOutcome :=
  if s.mc.loopOn = true ∧ s.mc.tensionUp = false ∧ 16 ≤ s.mc.tensionUpRun ∧ s.mc.state ≠ .unthreading then
    (s.onMc Mc.tensionIsUp).done
  else s.unchanged

/-- UNTHREAD_DONE (R118, R119, R168). -/
def execUnthreadDone (s : State) : RowOutcome :=
  if s.mc.state = .unthreading then s.ejected.done else s.unchanged

/-- LEADER_HOME (R119). -/
def execLeaderHome (s : State) : RowOutcome :=
  match s.mc.job with
  | some j => if j.stage = .recoverWind then s.beginUnthread.done else s.unchanged
  | none => s.unchanged

/-- RECOVERY_TENSION_TIMEOUT (R119): the rest of the 8 s passes. -/
def execRecoveryTensionTimeout (s : State) : RowOutcome :=
  match s.mc.job with
  | some j =>
    if j.stage = .recoverTension then ((s.elapse (s.mc.recovery.getD 0)).failRecovery j).done else s.unchanged
  | none => s.unchanged

/-- TENSION_FAULT (R119, R124). -/
def execTensionFault (s : State) : RowOutcome :=
  if s.mc.loopOn = true ∧ s.mc.tensionUp = true ∧ 40 ≤ s.mc.tensionFaults then
    match s.mc.job with
    | some j =>
      if j.stage = .recoverTension ∨ j.stage = .recoverWind then ((s.failRecovery j).faultNote 0).done
      else (s.enterFault 0 .motionFault noDetail).done
    | none => (s.enterFault 0 .motionFault noDetail).done
  else s.unchanged

end Sys2Proof.Machine
end

