-- ==== Sys2Proof/Machine/Upstream.lean ====
section
/-! DEFINITION. The rows of the upstream port and of the DRAM port (chapter 11). -/

namespace Sys2Proof.Machine

/-- A write to an offset of the map page. -/
def mapWriteAt (who : Initiator) (offset : Nat) (w : Width) (value : BitVec 64) : Access :=
  { who := who, addr := Config.mapPage + offset, width := w, write := true, value := value }

/-- RESET_WORD_WRITE (R172, R181). -/
def execResetWordWrite (who : Initiator) (lane : BitVec 2) (w : Width) (value : BitVec 64) (s : State) : RowOutcome :=
  .next (s.arrive (mapWriteAt who (268 + lane.toNat) w value))

/-- DESCRIPTOR_WRITE (R173). -/
def execDescriptorWrite (who : Initiator) (index : BitVec 4) (lane : BitVec 3) (w : Width) (value : BitVec 64)
    (s : State) : RowOutcome :=
  .next (s.arrive (mapWriteAt who (16 * index.toNat + lane.toNat) w value))

/-- DESCRIPTOR_COMMIT (R173 to R175). -/
def execDescriptorCommit (who : Initiator) (index : BitVec 4) (lane : BitVec 3) (w : Width) (value : BitVec 64)
    (s : State) : RowOutcome :=
  .next (s.arrive (mapWriteAt who (16 * index.toNat + 8 + lane.toNat) w value))

/-- COMPLETION_HEAD_WRITE (R172, R187, R188). -/
def execCompletionHeadWrite (who : Initiator) (lane : BitVec 2) (w : Width) (value : BitVec 64) (s : State) : RowOutcome :=
  .next (s.arrive (mapWriteAt who (256 + lane.toNat) w value))

/-- SENSOR_HEAD_WRITE (R154, R172, R188). -/
def execSensorHeadWrite (who : Initiator) (lane : BitVec 2) (w : Width) (value : BitVec 64) (s : State) : RowOutcome :=
  .next (s.arrive (mapWriteAt who (260 + lane.toNat) w value))

/-- ATTENTION_MASK_WRITE (R172, R188). -/
def execAttentionMaskWrite (who : Initiator) (lane : BitVec 2) (w : Width) (value : BitVec 64) (s : State) : RowOutcome :=
  .next (s.arrive (mapWriteAt who (264 + lane.toNat) w value))

/-- UPSTREAM_WRITE (R171, R176, R177). -/
def execUpstreamWrite (who : Initiator) (addr : Nat) (w : Width) (value : BitVec 64) (s : State) : RowOutcome :=
  .next (s.arrive { who := who, addr := addr, width := w, write := true, value := value })

/-- COMMAND_POST (R176, R177, R183). -/
def execCommandPost (who : Initiator) (addr : Nat) (w : Width) (value : BitVec 64) (s : State) : RowOutcome :=
  .next (s.arrive { who := who, addr := addr, width := w, write := true, value := value })

/-- POOL_WRITE (R34, R176). -/
def execPoolWrite (who : Initiator) (addr : Nat) (w : Width) (value : BitVec 64) (s : State) : RowOutcome :=
  .next (s.arrive { who := who, addr := addr, width := w, write := true, value := value })

/-- PACK_WRITE (R41, R42, R176, R178). -/
def execPackWrite (who : Initiator) (addr : Nat) (w : Width) (value : BitVec 64) (s : State) : RowOutcome :=
  .next (s.arrive { who := who, addr := addr, width := w, write := true, value := value })

/-- UNPACK_READ (R96, R176, R178), and every other upstream read (R176). -/
def execUnpackRead (who : Initiator) (addr : Nat) (w : Width) (s : State) : RowOutcome :=
  .next (s.arrive { who := who, addr := addr, width := w, write := false, value := 0 })

/-- HOLD_LIMIT_EXPIRY (R178): the rest of the limit passes and the access is answered ERROR. -/
def execHoldLimitExpiry (who : Initiator) (s : State) : RowOutcome :=
  match s.bpu.held.find? fun h => h.access.who == who && h.timer.isSome with
  | some h => (((s.elapse (h.timer.getD 0)).unhold h).answerError h.access).done
  | none => s.unchanged

/-- DRAM_PORT_GRANT (R179): the channel's bytes move, then one waiting requester has its transfer; with none waiting no
grant is made. -/
def execDramPortGrant (flow : ChannelFlow) (s : State) : RowOutcome :=
  let s1 := s.channelFlow flow
  match s1.choice with
  | none => s1.done
  | some r => if Config.dramSize < s1.reach r then .fault .dramOutOfRange else (s1.grant r).done

end Sys2Proof.Machine
end

