-- ==== Sys2Proof/Machine/Writing.lean ====
section
/-! DEFINITION. The rows of writing to tape (chapter 4). -/

namespace Sys2Proof.Machine

/-- The head has not reached the place: a start mark there is still to come. -/
def Mc.ahead (m : Mc) (p : TapePos) : Bool :=
  match m.pos with
  | some q => q.pass == p.pass && (decide (q.offset < p.offset) || (m.runIn && q.offset == p.offset))
  | none => false

/-- A stripe may be armed as the write point comes up (R66, R69, R133, R170). -/
def State.mayArm (s : State) : Bool :=
  s.mc.state == .streaming && !s.mc.slowing && s.mc.thermal == .normal && s.arming && s.tte.inFlight.isNone
    && s.tte.loopback.isNone && s.tte.runOn.isNone

/-- ARM_STRIPE (R66, R80). -/
def execArmStripe (s : State) : RowOutcome :=
  match s.tte.writePoint with
  | none => s.unchanged
  | some p =>
    if s.mayArm = false then s.unchanged
    else if p.startable then
      match s.spm.head with
      | some i => if s.mc.ahead p then (s.armHead i p).done else s.unchanged
      | none => s.unchanged
    else if p.pass < Config.lastPass then (s.writeTurn p).done
    else if s.spm.head.isSome then s.mediaEnd.done
    else s.unchanged

/-- TRANSFER_COUNT_TERMINATION (R68, R72). -/
def execTransferCountTermination (s : State) : RowOutcome :=
  match s.tte.inFlight with
  | some f => if f.transfer = true ∧ Config.stripeSize ≤ f.sent then (s.countEnd f).done else s.unchanged
  | none => s.unchanged

/-- CHANNEL_STARVATION (R68, R72). -/
def execChannelStarvation (s : State) : RowOutcome :=
  match s.tte.inFlight with
  | some f =>
    if f.transfer = true ∧ f.sent < Config.stripeSize ∧ s.tte.fifo = [] then s.channelEnd.done else s.unchanged
  | none => s.unchanged

/-- VERIFY_REPORT (R70, R71): a report for another start mark, or after the deadline, is discarded. -/
def execVerifyReport (mark : Nat) (header : HeaderRead) (counts : Counts) (s : State) : RowOutcome :=
  match s.tte.verify with
  | none => s.unchanged
  | some v =>
    if v.mark ≠ mark then s.unchanged
    else
      let place := ((s.slotAt v.slot).pos).getD { pass := 0, mark := mark }
      (if verifyGood (headerValidAt header.valid header.bytes place) counts s.hm.threshold then s.judgeGood v.slot counts
        else s.judgeFailed v.slot (some counts)).done

end Sys2Proof.Machine
end

