-- ==== Sys2Proof/Machine/Dispatch.lean ====
section
/-! DEFINITION. One arm for each row of spec/opcode_table.json, each one call of the row's meaning. -/

namespace Sys2Proof.Machine

/-- The effect of a command on everything but the queue. -/
def exec (i : Instr) (s : State) : Host.Outcome State Fault Refusal :=
  match i with
  | .powerOnReset present tapeInPath protected_ mem => Sys2Proof.Machine.execPowerOnReset present tapeInPath protected_ mem s
  | .resetWordWrite who lane w value => Sys2Proof.Machine.execResetWordWrite who lane w value s
  | .descriptorWrite who index lane w value => Sys2Proof.Machine.execDescriptorWrite who index lane w value s
  | .descriptorCommit who index lane w value => Sys2Proof.Machine.execDescriptorCommit who index lane w value s
  | .completionHeadWrite who lane w value => Sys2Proof.Machine.execCompletionHeadWrite who lane w value s
  | .sensorHeadWrite who lane w value => Sys2Proof.Machine.execSensorHeadWrite who lane w value s
  | .attentionMaskWrite who lane w value => Sys2Proof.Machine.execAttentionMaskWrite who lane w value s
  | .upstreamWrite who addr w value => Sys2Proof.Machine.execUpstreamWrite who addr w value s
  | .commandPost who addr w value => Sys2Proof.Machine.execCommandPost who addr w value s
  | .poolWrite who addr w value => Sys2Proof.Machine.execPoolWrite who addr w value s
  | .packWrite who addr w value => Sys2Proof.Machine.execPackWrite who addr w value s
  | .unpackRead who addr w => Sys2Proof.Machine.execUnpackRead who addr w s
  | .holdLimitExpiry who => Sys2Proof.Machine.execHoldLimitExpiry who s
  | .dramPortGrant flow => Sys2Proof.Machine.execDramPortGrant flow s
  | .setPool tag flags n => Sys2Proof.Machine.execSetPool tag flags n s
  | .setCompression tag flags setting => Sys2Proof.Machine.execSetCompression tag flags setting s
  | .setSealInterval tag flags seconds => Sys2Proof.Machine.execSetSealInterval tag flags seconds s
  | .sensorPlan tag flags plan => Sys2Proof.Machine.execSensorPlan tag flags plan s
  | .setHealth tag flags ci => Sys2Proof.Machine.execSetHealth tag flags ci s
  | .queryHealth tag flags => Sys2Proof.Machine.execQueryHealth tag flags s
  | .loopback tag flags slot => Sys2Proof.Machine.execLoopback tag flags slot s
  | .loopbackReport header counts => Sys2Proof.Machine.execLoopbackReport header counts s
  | .load tag flags => Sys2Proof.Machine.execLoad tag flags s
  | .unload tag flags => Sys2Proof.Machine.execUnload tag flags s
  | .rewind tag flags => Sys2Proof.Machine.execRewind tag flags s
  | .locate tag flags kind target => Sys2Proof.Machine.execLocate tag flags kind target s
  | .locateEod tag flags => Sys2Proof.Machine.execLocateEod tag flags s
  | .space tag flags kind count => Sys2Proof.Machine.execSpace tag flags kind count s
  | .openWrite tag flags => Sys2Proof.Machine.execOpenWrite tag flags s
  | .streamRecord tag flags count lengths => Sys2Proof.Machine.execStreamRecord tag flags count lengths s
  | .writeMark tag flags count sync => Sys2Proof.Machine.execWriteMark tag flags count sync s
  | .flush tag flags => Sys2Proof.Machine.execFlush tag flags s
  | .openRead tag flags => Sys2Proof.Machine.execOpenRead tag flags s
  | .deliverRecord tag flags length => Sys2Proof.Machine.execDeliverRecord tag flags length s
  | .close tag flags => Sys2Proof.Machine.execClose tag flags s
  | .abort tag flags => Sys2Proof.Machine.execAbort tag flags s
  | .cartridgeInserted protected_ mem => Sys2Proof.Machine.execCartridgeInserted protected_ mem s
  | .cartridgeRemoval => Sys2Proof.Machine.execCartridgeRemoval s
  | .i2cTransactionDone outcome => Sys2Proof.Machine.execI2cTransactionDone outcome s
  | .i2cRetryWaitExpiry => Sys2Proof.Machine.execI2cRetryWaitExpiry s
  | .servoLock => Sys2Proof.Machine.execServoLock s
  | .leaderNotCaptured tapeInPath => Sys2Proof.Machine.execLeaderNotCaptured tapeInPath s
  | .threadTimeout tapeInPath => Sys2Proof.Machine.execThreadTimeout tapeInPath s
  | .tensionUp => Sys2Proof.Machine.execTensionUp s
  | .tensionFault => Sys2Proof.Machine.execTensionFault s
  | .speedFault => Sys2Proof.Machine.execSpeedFault s
  | .markEvent wait => Sys2Proof.Machine.execMarkEvent wait s
  | .runOnEnd => Sys2Proof.Machine.execRunOnEnd s
  | .wearStep => Sys2Proof.Machine.execWearStep s
  | .turnaroundDone => Sys2Proof.Machine.execTurnaroundDone s
  | .repositionReady => Sys2Proof.Machine.execRepositionReady s
  | .governorStart => Sys2Proof.Machine.execGovernorStart s
  | .readAheadResume => Sys2Proof.Machine.execReadAheadResume s
  | .unthreadDone => Sys2Proof.Machine.execUnthreadDone s
  | .leaderHome => Sys2Proof.Machine.execLeaderHome s
  | .recoveryTensionTimeout => Sys2Proof.Machine.execRecoveryTensionTimeout s
  | .sequenceStart => Sys2Proof.Machine.execSequenceStart s
  | .conversionDone raw => Sys2Proof.Machine.execConversionDone raw s
  | .coderTakeBytes n => Sys2Proof.Machine.execCoderTakeBytes n s
  | .fillingSlotTaken => Sys2Proof.Machine.execFillingSlotTaken s
  | .sealTimerExpiry => Sys2Proof.Machine.execSealTimerExpiry s
  | .armStripe => Sys2Proof.Machine.execArmStripe s
  | .transferCountTermination => Sys2Proof.Machine.execTransferCountTermination s
  | .channelStarvation => Sys2Proof.Machine.execChannelStarvation s
  | .verifyReport mark header counts => Sys2Proof.Machine.execVerifyReport mark header counts s
  | .readPositionStart => Sys2Proof.Machine.execReadPositionStart s
  | .receptionOverrun => Sys2Proof.Machine.execReceptionOverrun s
  | .receptionReport pass mark blank headerValid counts => Sys2Proof.Machine.execReceptionReport pass mark blank headerValid counts s
  | .retryStart => Sys2Proof.Machine.execRetryStart s
  | .deliverySlotTaken => Sys2Proof.Machine.execDeliverySlotTaken s
  | .decodeStep => Sys2Proof.Machine.execDecodeStep s
  | .handover => Sys2Proof.Machine.execHandover s
  | .headerReport pass mark blank header entryFlags => Sys2Proof.Machine.execHeaderReport pass mark blank header entryFlags s
  | .tapeStopped => Sys2Proof.Machine.execTapeStopped s

end Sys2Proof.Machine
end

