-- ==== Sys2Proof/Safety.lean ====
section
/-! DEFINITION. What claims call a safe state: both memories in their canonical form, commands numbered, the sizes and levels
of R16, R109, R159 and R183 kept, the slot table fitting its direction (R17, R19). -/

namespace Sys2Proof.Machine

/-- Both memories are in the canonical form. -/
def State.MemoryOk (s : State) : Prop := Memory.wf s.dram = true ∧ Memory.wf s.cartridge = true

/-- Every command number that a list of the CI-unit holds has been given out. -/
def Ci.Numbered (c : Ci) : Prop :=
  (∀ t ∈ c.outstanding, t.id < c.nextId) ∧ (∀ k ∈ c.motionQueue, k < c.nextId) ∧ (∀ k ∈ c.dataQueue, k < c.nextId)
    ∧ (∀ k ∈ c.configWait, k < c.nextId) ∧ ∀ k ∈ c.aborts, k < c.nextId

/-- The level in force is within the cap of the health state (R109). -/
def State.LevelOk (s : State) : Prop := s.rg.level ≤ s.hm.cap

/-- The directions under which a slot can be in a state (R17, R19). -/
def SlotState.belongs (g : SlotState) (d : Direction) : Bool :=
  match g with
  | .free => true
  | .filling => d == .writeOpen
  | .sealed | .writing | .awaitVerify | .verified => d == .writeOpen || d == .writeFailed
  | .reading | .readDone | .readFailed | .delivering => d == .readOpen

/-- The slot table fits the direction: write-side slots only in a write session, a FILLING one only in WRITE_OPEN, read-side slots
only in READ_OPEN, with direction NONE every slot FREE (R17, R19); and at most one slot is FILLING, WRITING, AWAIT_VERIFY, READING
or DELIVERING (R17). -/
def Spm.Fits (m : Spm) : Prop :=
  (∀ x ∈ m.slots, x.state.belongs m.direction = true)
    ∧ ∀ g ∈ [SlotState.filling, .writing, .awaitVerify, .reading, .delivering], m.count g ≤ 1

/-- What every step keeps: canonical memories, numbered commands of which at most 16 are outstanding (R183), the level within
the cap (R109), the index within 0 to 1000 (R159), a slot table of at most 384 records (R16) that fits the direction (R17,
R19). -/
def State.Inv (s : State) : Prop :=
  s.MemoryOk ∧ s.ci.Numbered ∧ s.ci.outstanding.length ≤ Config.maxOutstanding ∧ s.LevelOk ∧ s.hm.ci ≤ 1000
    ∧ s.spm.slots.length ≤ 384 ∧ s.spm.Fits

/-- The health state is one that R163 leaves standing at this index. -/
def Hm.Settled (h : Hm) : Prop := h.ci ≤ 1000 ∧ healthNext h.ci h.health = h.health

/-- A run is safe at a state that steps to a next state: neither a fault nor a refusal. -/
def State.Goes (s : State) : Prop := ∃ t, step s = .next t

/-! ### Words for claims about commands -/

/-- The CI-unit takes a command with these flags and dispatches it in the same step: fewer than 16 commands are outstanding
(R183), the command is not malformed, and a barriered one finds no other command outstanding (R182, R184). -/
def State.Takes (s : State) (flags : BitVec 8) : Prop :=
  s.ci.Numbered ∧ s.ci.outstanding.length < Config.maxOutstanding
    ∧ (flags = 0 ∨ (flags = 1 ∧ s.ci.outstanding = []))

/-- A command taken, at a stage, under the next number (R183). -/
def State.newEntry (e : State) (tag : BitVec 16) (flags : BitVec 8) (cmd : HostCmd) (g : Stage) : Taken :=
  { id := e.ci.nextId, tag := tag, flags := flags, malformed := flagsMalformed flags, cmd := cmd, queue := cmd.group,
    stage := g }

/-- A command has joined the outstanding list and stands in no queue (R183, R184). -/
def State.takenOut (e : State) (tag : BitVec 16) (flags : BitVec 8) (cmd : HostCmd) (g : Stage) : State :=
  e.onCi fun c =>
    { c with outstanding := c.outstanding ++ [e.newEntry tag flags cmd g], nextId := c.nextId + 1 }

/-- A motion command has joined the outstanding list and the motion queue (R183, R184). -/
def State.takenMotion (e : State) (tag : BitVec 16) (flags : BitVec 8) (cmd : HostCmd) (g : Stage) : State :=
  (e.takenOut tag flags cmd g).onCi fun c => { c with motionQueue := c.motionQueue ++ [e.ci.nextId] }

/-- A data command has joined the outstanding list and the data queue (R183, R184). -/
def State.takenData (e : State) (tag : BitVec 16) (flags : BitVec 8) (cmd : HostCmd) (g : Stage) : State :=
  (e.takenOut tag flags cmd g).onCi fun c => { c with dataQueue := c.dataQueue ++ [e.ci.nextId] }

/-- A command taken has completed in the same step: it stands in the outstanding list with its completion, stamped in state
`e`, at the end of the pending list, and the full test has been made (R183, R187). -/
def State.takenDone (e : State) (tag : BitVec 16) (flags : BitVec 8) (cmd : HostCmd) (r : Result) (a b : Detail) : State :=
  ((e.takenOut tag flags cmd .handed).onCw fun c =>
    { c with pending := c.pending ++ [e.stamp (some e.ci.nextId) tag cmd.code r.code a b] }).tryRecord

/-! ### Words for claims about the upstream port -/

/-- The initiator has no access in progress, no controller reset's map-page writes are under way, nothing waits at place 2 of
the arbiter, the Tape Transfer Engine is not urgent and no count has reached 64 (R171, R179, R181): an access that asks for the
port is granted it as it arrives (log entry 11). -/
def State.PortFree (s : State) (who : Initiator) : Prop :=
  s.busy who = false ∧ s.bpu.rewrites = 0 ∧ s.bpu.upstream = [] ∧ s.tteUrgent = false
    ∧ ∀ r, s.waits r = true → s.bpu.starve.get r < 64

/-- The counts after a grant to an upstream access (R179). -/
def State.counted (s : State) : Starve :=
  let next (r : Requester) : Nat := if s.waits r then s.bpu.starve.get r + 1 else 0
  { tte := next .tte, upstream := 0, pack := next .pack, unpack := next .unpack, ring := next .ring }

/-- An upstream access has had its grant and is answered (R171, R179). -/
def State.served (s : State) (who : Initiator) (okay : Bool) (bytes : List Byte) : State :=
  (s.onBpu fun b => { b with starve := s.counted }).answer who okay bytes

/-- A byte write of `w` bytes of `value` at an address. -/
def storeAt (m : List Host.Cell) (a : Nat) (w : Width) (value : BitVec 64) : List Host.Cell :=
  Memory.writeBytes m a (toLe (widthBytes w) value.toNat)

/-- The rows that put an upstream write of this address, width and value to the port: what becomes of it is decided by the
class of its address (R176). -/
def writeRows (who : Initiator) (addr : Nat) (w : Width) (value : BitVec 64) : List Instr :=
  [.upstreamWrite who addr w value, .commandPost who addr w value, .poolWrite who addr w value,
    .packWrite who addr w value]

/-- The access that the rows of `writeRows` put to the port. -/
def writeOf (who : Initiator) (addr : Nat) (w : Width) (value : BitVec 64) : Access :=
  { who := who, addr := addr, width := w, write := true, value := value }

/-- The access that UNPACK_READ puts to the port. -/
def readOf (who : Initiator) (addr : Nat) (w : Width) : Access :=
  { who := who, addr := addr, width := w, write := false, value := 0 }

/-- An access that the port looks at as it arrives: its initiator has none in progress, no controller reset's map-page writes
are under way, the address is aligned and inside DRAM (R171, R181). -/
def State.Arrives (s : State) (who : Initiator) (addr : Nat) (w : Width) : Prop :=
  s.busy who = false ∧ s.bpu.rewrites = 0 ∧ addr % widthBytes w = 0 ∧ addr < Config.dramSize

/-- An aperture access left to be held under its descriptor (R178): ERROR under REFUSE, else held, under LIMIT with a timer of
the hold limit in units of 10 µs. -/
def State.leftHeld (s : State) (a : Access) (why : HoldWhy) (i : Nat) (d : Descriptor) : State :=
  match d.mode with
  | .refuse => s.answerError a
  | .wait => (s.clearAnswer a.who).onBpu fun b =>
      { b with held := b.held ++ [{ access := a, why := why, descriptor := some i, timer := none }] }
  | .limit => (s.clearAnswer a.who).onBpu fun b =>
      { b with held := b.held ++ [{ access := a, why := why, descriptor := some i, timer := some (4 * d.limit) }] }

end Sys2Proof.Machine
end

