-- ==== Sys2Proof/WellFormed.lean ====
section
/-! DEFINITION. What a command's operands must satisfy to be one the outside can give: counts and fields within the
ranges the formats give them. `exec` is total without it. -/

namespace Sys2Proof

/-- A cartridge memory image: canonical, and within its 32 KiB (R135, R137). -/
def cartridgeImageOk (mem : List Host.Cell) : Bool :=
  Machine.Memory.wf mem && mem.all fun c => decide (c.1 < Config.cartridgeSize)

/-- The 64 bytes of a header (R6). -/
def HeaderRead.ok (h : HeaderRead) : Bool := h.bytes.length == Config.headerSize

/-- Rows out of 256 and corrected symbols 0 to 16 (R70). -/
def Counts.ok (c : Counts) : Bool := decide (c.rows ≤ 256) && decide (c.maxCorrected ≤ 16)

/-- Both lists of a plan take eight bytes in the slot (chapter 9, Formats). -/
def PlanArgs.ok (p : PlanArgs) : Bool := p.listA.length == 8 && p.listB.length == 8

/-- A position a report can name (R1, R2). -/
def positionOk (pass mark : Nat) : Bool := decide (pass ≤ Config.lastPass) && decide (mark ≤ Config.lastMark)

/-- The operands are within the ranges the spec's formats give them. -/
def Instr.wellFormed : Instr → Bool
  | .powerOnReset _ _ _ mem => cartridgeImageOk mem
  | .cartridgeInserted _ mem => cartridgeImageOk mem
  | .sensorPlan _ _ plan => plan.ok
  | .streamRecord _ _ _ lengths => lengths.length == 6
  | .loopbackReport header counts => header.ok && counts.ok
  | .verifyReport mark header counts => decide (mark ≤ Config.lastMark) && header.ok && counts.ok
  | .receptionReport pass mark _ _ counts => positionOk pass mark && counts.ok
  | .headerReport pass mark _ header flags =>
    positionOk pass mark && header.ok && decide (flags.length ≤ Config.maxEntries)
  | .coderTakeBytes n => decide (n ≤ Config.smallFifo)
  | .dramPortGrant (.taken n) => decide (n ≤ Config.channelFifo)
  | .dramPortGrant (.delivered bytes) => decide (bytes.length ≤ Config.channelFifo)
  | _ => true

end Sys2Proof
end

