-- ==== Sys2Proof/Certificates/Slice0/Obligations.lean ====
section
/-! DEFINITION. The statements for the provers. Most read `exec c s = .next e.finish`: in state `s` the command `c` answers the
next state in which its effect `e` stands and what follows of itself has been done (`FinishOfQuietState`; `finish` never
touches memory or the queue, State.finish_rest of Laws/Rest.lean). -/

section
open Sys2Proof Sys2Proof.Machine

/-! ### Steps, reset, invariants -/

/-- A step runs the command at the front of the queue on the state with the queue's rest. -/
def Obligations.StepRunsTheFrontCommand : Prop :=
  ∀ (c : Instr) (rest : List Instr) (s : State),
    step { s with pending := c :: rest } = exec c { s with pending := rest }

/-- The MODEL's choice (log entry 1): on an empty queue one tick of its clock passes: every timer that runs comes one tick
nearer its end, and nothing else moves. -/
def Obligations.EmptyQueueTicks : Prop :=
  ∀ s : State, s.pending = [] →
    step s = .next { s with
      now := s.now + 1
      bpu := { s.bpu with held := s.bpu.held.map fun h => { h with timer := h.timer.map (· - 1) } }
      spm := { s.spm with sealTimer := s.spm.sealTimer.map (· - 1) }
      mc := { s.mc with
        thread := s.mc.thread.map fun t => { t with timer := t.timer - 1 }
        recovery := s.mc.recovery.map (· - 1) }
      cml := { s.cml with op := s.cml.op.map fun o => { o with wait := o.wait.map (· - 1) } }
      ss := { s.ss with period := s.ss.period - 1 } }

/-- What power-on reset leaves: R36, R37, R61, R83, R93, R104, R116, R134, R138, R150, R158, R159, R180, R190. Two clauses are the
MODEL's choices: the motion state EMPTY, since State.reset is a power-on with its inputs inactive, where R116 has STRANDED,
PRESENT or EMPTY by them (log entry 6); and ATTN negated (log entry 42). -/
def Obligations.ResetLeaves : Prop :=
  let s := State.reset
  (s.spm.slots = [] ∧ s.spm.direction = .none ∧ s.spm.sealInterval = 0)
  ∧ (s.pe.intake = [] ∧ s.pe.current = none ∧ s.pe.next = none ∧ s.pe.nextRecord = 0 ∧ s.pe.cursor = 0 ∧ s.pe.fifo = []
      ∧ s.pe.coder = .idle ∧ s.pe.crc = 0xFFFFFFFF ∧ s.pe.compression = true)
  ∧ (s.tte.writePoint = none ∧ s.tte.inFlight = none ∧ s.tte.verify = none ∧ s.tte.fifo = [] ∧ s.tte.cause = none
      ∧ s.tte.loopback = none ∧ s.tte.read = none)
  ∧ (s.ue.state = .idle ∧ s.ue.length = 0 ∧ s.ue.cursor = 0 ∧ s.ue.output = [])
  ∧ (s.rg.f = 0 ∧ s.rg.sampleTime = none ∧ s.rg.level = 0 ∧ s.rg.target = none ∧ s.rg.runLength = none
      ∧ s.rg.stopKind = .none)
  ∧ (s.mc.state = .empty ∧ s.mc.pos = none ∧ s.mc.travel = .stopped ∧ s.mc.dsPos = none ∧ s.mc.speedFaults = 0
      ∧ s.mc.thermal = .normal ∧ s.mc.torqueA = 1024 ∧ s.mc.torqueB = 1024)
  ∧ (s.cml.condition = .absent ∧ s.cml.recorded = .unknown ∧ s.cml.directory = none ∧ s.cml.op = none)
  ∧ (s.ss.plan.listA = [2, 3, 4, 5, 6, 7, 8] ∧ s.ss.plan.listB = [2, 3, 0, 1, 9, 10, 11] ∧ s.ss.plan.period = 2
      ∧ s.ss.plan.batch = 8 ∧ s.ss.stamp = 0 ∧ s.ss.tail = 0 ∧ s.ss.head = 0 ∧ s.ss.drops = 0)
  ∧ (s.hm.ci = 0 ∧ s.hm.health = .good ∧ s.hm.wear = 0 ∧ s.hm.last = none)
  ∧ (s.bpu.effective = List.replicate 16 Descriptor.blank ∧ s.bpu.upstream = [] ∧ s.bpu.held = [])
  ∧ (s.ci.intake = 0 ∧ s.ci.outstanding = [] ∧ s.cw.pending = [] ∧ s.cw.tail = 0 ∧ s.cw.head = 0 ∧ s.cw.mask = 0
      ∧ s.cw.attn = false)

/-- The invariant of `EveryStepKeepsTheInvariant` holds after reset, and the health state is settled. -/
def Obligations.ResetMeetsTheInvariant : Prop := State.reset.Inv ∧ State.reset.hm.Settled ∧ State.reset.Quiet

/-- Every step keeps canonical memories, numbered commands of which at most 16 are outstanding (R183), the level within the cap
(R109), the index within 0 to 1000 (R159), a slot table of at most 384 records (R16) in which at most one slot is FILLING,
WRITING, AWAIT_VERIFY, READING or DELIVERING (R17), a FILLING slot stands only in WRITE_OPEN (R17), write-side slots only in a
write session and read-side slots only in READ_OPEN, and with direction NONE every slot is FREE (R19). -/
def Obligations.EveryStepKeepsTheInvariant : Prop :=
  ∀ s t : State, s.Inv → step s = .next t → t.Inv

/-- No command touches the queue of commands that wait: the queue is the MODEL's own interface (log entry 1), and that a
power-on leaves it too is the MODEL's choice (log entry 46). -/
def Obligations.CommandsLeaveTheQueue : Prop :=
  ∀ (c : Instr) (s t : State), exec c s = .next t → t.pending = s.pending

/-- Which bytes of DRAM and of the cartridge memory each row leaves as they are. Both memories stand under every row but these:
power-on and a cartridge put in or taken out set the cartridge memory, and the link programs it; an upstream write changes DRAM
at most in the bytes it addresses, ARM_STRIPE in the 64 bytes of the header of the stripe it arms, and RECEPTION_REPORT in the
bytes of the slot that the channel delivered and the port has not stored yet, which it stores without further grants (the MODEL's
choice, log entry 36); the port's grant makes the DRAM transfer of the requester served (GrantServesUpstream, RingsAreServed). An upstream write or a grant may carry out a
controller reset, which reaches the cartridge memory only where it cuts a page write in flight (R148, log entry 5). That a
power-on leaves every byte of DRAM as it was is the MODEL's choice, where R36 calls the slots' contents undefined (log entry
4). -/
def Obligations.RowsThatLeaveMemory : Prop :=
  ∀ (c : Instr) (s t : State), exec c s = .next t →
    let dram : Prop := ∀ a, Memory.read t.dram a = Memory.read s.dram a
    let cartridge : Prop := ∀ a, Memory.read t.cartridge a = Memory.read s.cartridge a
    let stores (low n : Nat) : Prop :=
      (s.MemoryOk → ∀ a, a < low ∨ low + n ≤ a → Memory.read t.dram a = Memory.read s.dram a)
      ∧ ((∀ op k rest, s.cml.op = some op → op.steps ≠ .write k :: rest) → cartridge)
    match c with
    | .powerOnReset .. | .cartridgeInserted .. | .cartridgeRemoval | .i2cTransactionDone .. => dram
    | .resetWordWrite _ lane w _ => stores (Config.mapPage + (268 + lane.toNat)) (widthBytes w)
    | .descriptorWrite _ i lane w _ => stores (Config.mapPage + (16 * i.toNat + lane.toNat)) (widthBytes w)
    | .descriptorCommit _ i lane w _ => stores (Config.mapPage + (16 * i.toNat + 8 + lane.toNat)) (widthBytes w)
    | .completionHeadWrite _ lane w _ => stores (Config.mapPage + (256 + lane.toNat)) (widthBytes w)
    | .sensorHeadWrite _ lane w _ => stores (Config.mapPage + (260 + lane.toNat)) (widthBytes w)
    | .attentionMaskWrite _ lane w _ => stores (Config.mapPage + (264 + lane.toNat)) (widthBytes w)
    | .upstreamWrite _ addr w _ | .commandPost _ addr w _ | .poolWrite _ addr w _ | .packWrite _ addr w _ =>
      stores addr (widthBytes w)
    | .dramPortGrant .. => (∀ op k rest, s.cml.op = some op → op.steps ≠ .write k :: rest) → cartridge
    | .armStripe =>
      (s.MemoryOk → ∀ a, (∀ i, s.spm.head = some i → a < s.slotBase i ∨ s.slotBase i + 64 ≤ a) →
        Memory.read t.dram a = Memory.read s.dram a) ∧ cartridge
    | .receptionReport .. =>
      (s.MemoryOk → ∀ a, (∀ x, s.tte.read.bind (·.reception) = some x →
          let low := s.slotBase x.slot + x.stored
          a < low ∨ low + min s.tte.fifo.length (1048576 - x.stored) ≤ a) →
        Memory.read t.dram a = Memory.read s.dram a) ∧ cartridge
    | _ => dram ∧ cartridge

/-- Every row but DRAM_PORT_GRANT answers a next state in every state; the grant stops only on a transfer that reaches beyond
the DRAM that R171 says exists. That such a transfer stops the machine, with the fault dramOutOfRange, is the MODEL's choice (log
entry 49): R171 gives the size and no rule says what a transfer beyond it does. -/
def Obligations.OnlyAGrantCanStop : Prop :=
  (∀ (c : Instr) (s : State), (∀ flow, c ≠ .dramPortGrant flow) → ∃ t, exec c s = .next t)
  ∧ ∀ (flow : ChannelFlow) (s : State),
      exec (.dramPortGrant flow) s
        = match (s.channelFlow flow).choice with
          | some r =>
            if Config.dramSize < (s.channelFlow flow).reach r then .fault .dramOutOfRange
            else .next ((s.channelFlow flow).grant r).finish
          | none => .next (s.channelFlow flow).finish

/-- What `finish` adds to a state in which nothing follows of itself: counts of requesters that no longer wait return to 0
(R179), and changed fields of the part status block ask for one status write (R189). -/
def Obligations.FinishOfQuietState : Prop :=
  ∀ e : State, e.Quiet →
    e.finish =
      { e with
        bpu := { e.bpu with
          starve := e.finish.bpu.starve
          ring := e.bpu.ring ++ if e.statusBytes ≠ e.cw.shown ∧ e.cw.statusAsked = false then [.status] else [] }
        cw := { e.cw with statusAsked := e.cw.statusAsked || decide (e.statusBytes ≠ e.cw.shown) } }
    ∧ ∀ r, e.finish.bpu.starve.get r = if e.waits r then e.bpu.starve.get r else 0

/-! ### Configuration commands -/

/-- R24, R32, R45: SET_POOL's checks in their order, and accepted, N slots laid out, each FREE and its record emptied;
SET_COMPRESSION and SET_SEAL_INTERVAL store a value in range, and a seal interval restarts or stops the timer; any other value is
refused and nothing changes. The details' values over their eight bytes are read from the chapter's formats (log entry 53). -/
def Obligations.SettingsAreMade : Prop :=
  (∀ (s : State) (tag : BitVec 16) (flags : BitVec 8) (n : BitVec 16), s.Takes flags →
      let whole := ((s.region .pool).map fun d => d.pages / 256).getD 0
      exec (.setPool tag flags n) s = .next
        (if s.spm.direction ≠ .none ∨ s.tte.loopback.isSome = true then
            s.takenDone tag flags (.setPool n.toNat) .refusedState noDetail noDetail
          else if n.toNat < 8 ∨ 384 < n.toNat ∨ whole < n.toNat then
            s.takenDone tag flags (.setPool n.toNat) .refusedArgument noDetail noDetail
          else
            State.takenDone { s with spm := { s.spm with slots := List.replicate n.toNat Slot.empty } } tag flags
              (.setPool n.toNat) .ok (dv 8 n.toNat) (dv 8 whole)).finish)
  ∧ ((∀ (s : State) (tag : BitVec 16) (flags : BitVec 8) (v : BitVec 8), s.Takes flags →
      exec (.setCompression tag flags v) s = .next
        (if 1 < v.toNat then s.takenDone tag flags (.setCompression v.toNat) .refusedArgument noDetail noDetail
          else
            State.takenDone { s with pe := { s.pe with compression := v.toNat == 1 } } tag flags (.setCompression v.toNat) .ok
              (dv 1 v.toNat ++ du 7) noDetail).finish)
    ∧ ∀ (s : State) (tag : BitVec 16) (flags : BitVec 8) (v : BitVec 16), s.Takes flags →
      exec (.setSealInterval tag flags v) s = .next
        (if 60 < v.toNat then s.takenDone tag flags (.setSealInterval v.toNat) .refusedArgument noDetail noDetail
          else
            State.takenDone
              { s with spm := { s.spm with
                  sealInterval := v.toNat
                  sealTimer :=
                    if (s.spm.firstIn .filling).isSome ∧ v.toNat ≠ 0 then some (v.toNat * Config.ticksPerSecond) else none } }
              tag flags (.setSealInterval v.toNat) .ok (dv 8 v.toNat) noDetail).finish)

/-- R155, R156: a plan that passes the checks is applied, its first sequence carrying the stamp that detail A gives; one that
does not leaves the plan in force. -/
def Obligations.SensorPlanApplied : Prop :=
  ∀ (s : State) (tag : BitVec 16) (flags : BitVec 8) (p : PlanArgs), s.Takes flags →
    match planOf s.mc.state.threaded p with
    | none =>
      exec (.sensorPlan tag flags p) s = .next
        (s.takenDone tag flags (.sensorPlan p) .refusedArgument noDetail noDetail).finish
    | some plan =>
      ∃ x : Ss,
        exec (.sensorPlan tag flags p) s = .next
          (State.takenDone { s with ss := x } tag flags (.sensorPlan p) .ok (dv 4 s.ss.stamp ++ du 4) noDetail).finish
        ∧ x.plan = plan ∧ x.period = plan.period * Config.ticksPerMs ∧ x.stamp = (s.ss.stamp + 1) % 4294967296
        ∧ x.sequence = some
            { onB := false, next := 0, stamp := s.ss.stamp
              entries := match plan.scan with | [] => plan.listA | c :: _ => plan.listA.dropLast ++ [c] }
        ∧ x.half0 = (if s.ss.half0.phase = .filling then { s.ss.half0 with results := [] } else s.ss.half0)
        ∧ x.half1 = (if s.ss.half1.phase = .filling then { s.ss.half1 with results := [] } else s.ss.half1)
        ∧ x.latest = s.ss.latest ∧ x.tail = s.ss.tail ∧ x.head = s.ss.head ∧ x.drops = s.ss.drops

/-- R155: what a plan that passes has: its lists are the first bytes of the argument's lists, every entry an input; the masks
name the inputs scanned and signed and none from 12 on; of the flags only the alternate flag can be set. -/
def Obligations.AcceptedPlansPassTheChecks : Prop :=
  ∀ (threaded : Bool) (p : PlanArgs) (plan : Plan), p.ok = true → planOf threaded p = some plan →
    plan.listA = (p.listA.take p.lengthA.toNat).map (·.toNat) ∧ plan.listA.length = p.lengthA.toNat
    ∧ 1 ≤ plan.listA.length ∧ plan.listA.length ≤ 8 ∧ (∀ i ∈ plan.listA, i ≤ 11)
    ∧ plan.alternate = bitOf p.flags 0
    ∧ (plan.alternate = true →
        plan.listB = (p.listB.take p.lengthB.toNat).map (·.toNat) ∧ plan.listB.length = p.lengthB.toNat
        ∧ 1 ≤ plan.listB.length ∧ plan.listB.length ≤ 8 ∧ (∀ i ∈ plan.listB, i ≤ 11) ∧ plan.batch % 2 = 0)
    ∧ (plan.alternate = false → plan.listB = [])
    ∧ (∀ k, 12 ≤ k → p.scanMask.getLsbD k = false) ∧ (∀ i, i ∈ plan.scan ↔ p.scanMask.getLsbD i = true)
    ∧ plan.scan.Pairwise (· < ·) ∧ (plan.scan ≠ [] → 3 ≤ plan.listA.length)
    ∧ (∀ k, 12 ≤ k → p.formatMask.getLsbD k = false) ∧ (∀ i, i ∈ plan.signed ↔ p.formatMask.getLsbD i = true)
    ∧ (∀ k, 1 ≤ k → p.flags.getLsbD k = false)
    ∧ plan.period = p.period.toNat ∧ plan.batch = p.batch.toNat
    ∧ 1 ≤ plan.period ∧ plan.period ≤ 100 ∧ 1 ≤ plan.batch ∧ plan.batch ≤ 8
    ∧ (threaded = true → plan.listA.take 2 = [2, 3])

/-- R166, R167: SET_HEALTH sets the index, and the state from the value alone with R164's effects; QUERY_HEALTH completes with a
copy and changes nothing of the block. With nothing scored yet the increment, 0 to 13, and the amplitude bit are free values (log
entry 5), and the model's counter of free values moves on; that bits 3 to 7 of detail B byte 6 are 0 is the MODEL's choice (log
entry 85), and so is that the note of a state entered joins the pending list before SET_HEALTH's completion (log entry 125). -/
def Obligations.HealthSetAndQueried : Prop :=
  (∀ (s : State) (tag : BitVec 16) (flags : BitVec 8) (v : BitVec 16), s.Takes flags →
    exec (.setHealth tag flags v) s = .next
      (if 1000 < v.toNat then s.takenDone tag flags (.setHealth v.toNat) .refusedArgument noDetail noDetail
        else
          let h : Health := if 700 ≤ v.toNat then .cleanRequired else if 400 ≤ v.toNat then .cleanAdvised else .good
          State.takenDone (State.enterHealth { s with hm := { s.hm with ci := v.toNat } } h 3) tag flags (.setHealth v.toNat)
            .ok (dv 2 v.toNat ++ dv 1 h.code ++ du 5) noDetail).finish)
  ∧ ∀ (s : State) (tag : BitVec 16) (flags : BitVec 8), s.Takes flags →
    ∃ (free increment : Nat) (noAmplitude : Bool), increment ≤ 13 ∧
    exec (.queryHealth tag flags) s = .next
      (({ s with free := free } : State).takenDone tag flags .queryHealth .ok
        (dv 2 s.hm.ci ++ dv 1 s.hm.health.code ++ dv 1 (if s.hm.health = .cleanRequired then 4 else 6) ++ dv 4 s.hm.wear)
        (match s.hm.last with
          | none =>
            dv 4 4294967295 ++ dv 1 0 ++ dv 1 increment ++ dv 1 (byteOfBits [false, false, noAmplitude]) ++ dv 1 0
          | some r =>
            dv 4 r.stripe ++ dv 1 (if r.verify then 1 else 2) ++ dv 1 r.increment
              ++ dv 1 (byteOfBits [decide (0 < r.decrement), r.terms, r.amplitude.isNone])
              ++ dv 1 (if r.terms then r.maxCorrected else 0))).finish

/-- R161, R163, R164: entering a health state posts CLEANING_REQUEST but for GOOD, sets the panel line, and in CLEAN_REQUIRED
holds the level at 3; the state it has already changes nothing. A change of the index clamps it to 1000 and takes the health state
by the first line of R163's table; one that lowers it by at most 1 leaves a state that R163 lets stand. -/
def Obligations.HealthEntryEffects : Prop :=
  (∀ (s : State) (h : Health) (cause : Nat),
      (h = s.hm.health → s.enterHealth h cause = s)
      ∧ (h ≠ s.hm.health →
          (s.enterHealth h cause).hm = { s.hm with health := h }
          ∧ (s.enterHealth h cause).pins = { s.pins with panel := h == .cleanRequired }
          ∧ (s.enterHealth h cause).rg
              = (if h = .cleanRequired then
                  { s.rg with level := min s.rg.level 3, target := none, held := s.rg.held.map (min · 3) }
                 else s.rg)
          ∧ (h = .good → (s.enterHealth h cause).cw = s.cw)
          ∧ (h ≠ .good → (s.cw.pending.any fun i => i.cmd.isNone && i.code == 3) = false →
              ∃ i, (s.enterHealth h cause).cw.pending = s.cw.pending ++ [i] ∧ i.cmd = none ∧ i.code = 3 ∧ i.value = 1
                ∧ i.health = h ∧ i.detailA = dv 2 s.hm.ci ++ dv 1 h.code ++ dv 1 cause ++ du 4
                ∧ i.detailB = dv 4 (match s.hm.last with | some r => r.stripe | none => 4294967295) ++ du 4)))
  ∧ (∀ (s : State) (ci cause : Nat),
      let t := s.setIndex ci cause
      t.hm.ci = min ci 1000
      ∧ t.hm.health =
          (if 700 ≤ ci then .cleanRequired
           else if s.hm.health = .cleanRequired ∧ ci < 600 then .cleanAdvised
           else if s.hm.health = .good ∧ 400 ≤ ci then .cleanAdvised
           else if s.hm.health = .cleanAdvised ∧ ci < 300 then .good
           else s.hm.health)
      ∧ (s.hm.Settled → s.hm.ci ≤ ci + 1 → t.hm.Settled))

/-- R170: LOOPBACK starts with a cleared FIFO at byte 0 of the slot; the report of an image sent whole completes it. -/
def Obligations.LoopbackRuns : Prop :=
  (∀ (s : State) (tag : BitVec 16) (flags : BitVec 8) (slot : BitVec 16), s.Takes flags →
    exec (.loopback tag flags slot) s = .next
      (if (s.mc.state ≠ .empty ∧ s.mc.state ≠ .present) ∨ s.spm.direction ≠ .none ∨ s.tte.loopback.isSome = true then
          s.takenDone tag flags (.loopback slot.toNat) .refusedState noDetail noDetail
        else if s.spm.slots.length ≤ slot.toNat then
          s.takenDone tag flags (.loopback slot.toNat) .refusedArgument noDetail noDetail
        else
          State.takenOut
            { s with tte := { s.tte with
                fifo := [], loopback := some { cmd := s.ci.nextId, slot := slot.toNat, fetched := 0, sent := 0 } } }
            tag flags (.loopback slot.toNat) .running).finish)
  ∧ ∀ (s : State) (header : HeaderRead) (counts : Counts) (l : Loop), s.tte.loopback = some l →
      Config.stripeSize ≤ l.sent →
      exec (.loopbackReport header counts) s = .next
        (State.complete { s with tte := { s.tte with loopback := none, fifo := [] } } l.cmd .ok
          (dv 1 (if header.valid && headerFieldsOk header.bytes then 1 else 0) ++ dv 2 counts.rows
            ++ dv 1 counts.maxCorrected ++ du 4)
          (dv 4 (if header.valid && headerFieldsOk header.bytes then fieldAt header.bytes 0 4 else 4294967295) ++ du 4)).finish

/-- R182: a configuration command whose post word sets a flag bit other than barrier completes REFUSED_ARGUMENT, whatever it
asks. -/
def Obligations.MalformedFlagsRefused : Prop :=
  ∀ (s : State) (tag : BitVec 16) (flags : BitVec 8) (n : BitVec 16) (v : BitVec 8) (p : PlanArgs),
    s.ci.Numbered → s.ci.outstanding.length < Config.maxOutstanding → 2 ≤ flags.toNat → bitOf flags 0 = false →
    let refused (cmd : HostCmd) := Host.Outcome.next (s.takenDone tag flags cmd .refusedArgument noDetail noDetail).finish
    exec (.setPool tag flags n) s = refused (.setPool n.toNat)
    ∧ exec (.setCompression tag flags v) s = refused (.setCompression v.toNat)
    ∧ exec (.setSealInterval tag flags n) s = refused (.setSealInterval n.toNat)
    ∧ exec (.sensorPlan tag flags p) s = refused (.sensorPlan p)
    ∧ exec (.setHealth tag flags n) s = refused (.setHealth n.toNat)
    ∧ exec (.queryHealth tag flags) s = refused .queryHealth
    ∧ exec (.loopback tag flags n) s = refused (.loopback n.toNat)
    ∧ exec (.close tag flags) s = refused .close
    ∧ exec (.abort tag flags) s = refused .abort

/-! ### The map page (R172 to R175) -/

/-- R171, R172, R173: a write of the drive processor to bytes 0-7 of a descriptor is performed, captured and answered OKAY; the
effective table and all else stand. -/
def Obligations.DescriptorBytesCaptured : Prop :=
  ∀ (s : State) (i : BitVec 4) (lane : BitVec 3) (w : Width) (v : BitVec 64),
    s.PortFree .drive → lane.toNat % widthBytes w = 0 →
    let e := s.served .drive true []
    exec (.descriptorWrite .drive i lane w v) s = .next
      (State.finish { e with
        dram := storeAt s.dram (Config.mapPage + (16 * i.toNat + lane.toNat)) w v
        bpu := { e.bpu with
          captured := layOver s.bpu.captured (16 * i.toNat + lane.toNat) (toLe (widthBytes w) v.toNat) } })

/-- R173 to R175: an accepted commit is performed, captured, takes effect at once and is answered OKAY; each engine concerned is
told in the same step; the accesses held under the descriptor are classified again. A refused commit is answered ERROR at once,
without use of the port (R176), and hands over MAP_REFUSED; neither DRAM nor a table changes. That a commit is judged as it
arrives, also where it would wait at the arbiter, is the MODEL's choice (log entry 86), and so is that a read which waits at the
arbiter is not classified again (log entry 87), that a COMPLETION commit forgets the kinds kept for its slots (log entry 100), and that a
COMMAND commit drops the Command Intake's reads that wait at the arbiter (log entry 106). -/
def Obligations.CommitsTakeEffectOrChangeNothing : Prop :=
  (∀ (s : State) (i : BitVec 4) (lane : BitVec 3) (w : Width) (v : BitVec 64),
      s.PortFree .drive → lane.toNat % widthBytes w = 0 →
      let off := 16 * i.toNat + 8 + lane.toNat
      let captured := layOver s.bpu.captured off (toLe (widthBytes w) v.toNat)
      let b := (captured.drop (16 * i.toNat)).take 16
      let d := Descriptor.ofBytes b
      let e := s.served .drive true []
      let concerns (k : RegionKind) : Bool := s.oldKind i.toNat == k || (d.enable && d.kind == k)
      s.judgeCommit i.toNat b = none →
        exec (.descriptorCommit .drive i lane w v) s = .next
          (State.finish (State.reclassify { e with
            dram := storeAt s.dram (Config.mapPage + off) w v
            bpu := { e.bpu with
              captured := captured, effective := s.bpu.effective.set i.toNat d
              ring := if concerns .command then s.bpu.ring.filter (fun r => r != .readPost && r != .readSlot) else s.bpu.ring }
            spm := { e.spm with slots := if concerns .pool then [] else s.spm.slots }
            pe := { e.pe with cursor := if concerns .pack then 0 else s.pe.cursor }
            ss := { e.ss with tail := if concerns .sensor then 0 else s.ss.tail }
            ci := { e.ci with intake := if concerns .command then 0 else s.ci.intake }
            cw := { e.cw with
              tail := if concerns .completion then 0 else s.cw.tail
              slotKinds := if concerns .completion then [] else s.cw.slotKinds } } i.toNat)))
  ∧ (∀ (s : State) (i : BitVec 4) (lane : BitVec 3) (w : Width) (v : BitVec 64) (code : Nat),
      s.busy .drive = false → s.bpu.rewrites = 0 → lane.toNat % widthBytes w = 0 →
      let off := 16 * i.toNat + 8 + lane.toNat
      let b := ((layOver s.bpu.captured off (toLe (widthBytes w) v.toNat)).drop (16 * i.toNat)).take 16
      s.judgeCommit i.toNat b = some code →
        exec (.descriptorCommit .drive i lane w v) s = .next
          (State.finish ((s.answer .drive false []).note .mapRefused (dv 1 i.toNat ++ dv 1 code ++ dv 1 0 ++ du 5)
            ((b.drop 8).map some))))

/-- R174: what an accepted commit's descriptor has. -/
def Obligations.AcceptedCommitsAreSound : Prop :=
  ∀ (s : State) (i : Nat) (b : List Byte), b.length = 16 → s.judgeCommit i b = none →
    let d := Descriptor.ofBytes b
    (∀ k, 13 ≤ k → k < 16 → b.getD k 0 = 0) ∧ (b.getD 11 0).toNat < 4 ∧ (b.getD 12 0).toNat ≤ 1
    ∧ (b.getD 8 0).toNat ≤ 7 ∧ (b.getD 9 0).toNat ≤ 2 ∧ s.holdsState (s.oldKind i) = false
    ∧ (d.enable = true →
        d.kind ≠ .none ∧ (d.mode = .limit → d.limit ≠ 0) ∧ (d.allowDrive = true ∨ d.allowLink = true)
        ∧ (d.kind ≠ .plain → ∀ (j : Nat) (k : Descriptor), j < 16 → j ≠ i → s.bpu.effective[j]? = some k → k.enable = true →
            k.kind ≠ d.kind)
        ∧ d.base % 4096 = 0 ∧ d.base + 4096 * d.pages ≤ 536866816
        ∧ (match d.kind with
          | .none => False
          | .plain => 1 ≤ d.pages ∧ d.pages ≤ 131072
          | .command => 1 ≤ d.pages ∧ d.pages ≤ 4
          | .completion => 1 ≤ d.pages ∧ d.pages ≤ 8
          | .sensor | .pack | .unpack => 1 ≤ d.pages ∧ d.pages ≤ 16
          | .pool => 2048 ≤ d.pages)
        ∧ s.holdsState d.kind = false)

/-- R187: a note joins the pending list with its kind, its value 1 and the stamps of the moment; one of its kind that still
waits is counted up instead, to 255 at most, and keeps its details. -/
def Obligations.NotesAreCountedUp : Prop :=
  ∀ (s : State) (k : NoteKind) (a b : Detail),
    (s.note k a b).ci = s.ci ∧ (s.note k a b).dram = s.dram
    ∧ ((∀ i ∈ s.cw.pending, i.cmd = none → i.code ≠ k.code) →
        (s.note k a b).cw.pending = s.cw.pending ++
          [{ cmd := none, tag := 0, code := k.code, value := 1, health := s.hm.health, motion := s.mc.state,
             direction := s.spm.direction, travel := s.mc.travel, stripe := s.reported.1, record := s.reported.2,
             detailA := a, detailB := b }])
    ∧ ((∃ i ∈ s.cw.pending, i.cmd = none ∧ i.code = k.code) →
        (s.note k a b).cw = { s.cw with
          pending := s.cw.pending.map fun i =>
            if i.cmd = none ∧ i.code = k.code then { i with value := min 255 (i.value + 1) } else i })

/-- R154, R172, R181, R187, R188: a drive processor's write to a head index, the attention mask or the reset word is performed
and answered OKAY, and the whole word as it then stands in DRAM is captured; a reset word that becomes 1 starts a controller
reset, any other value has no effect. A write of eight bytes captures both words that it covers, the lower first (the MODEL's
choice, log entry 131). -/
def Obligations.MapWordsAreCaptured : Prop :=
  (∀ (s : State) (lane : BitVec 2) (w : Width) (v : BitVec 64),
      s.PortFree .drive → lane.toNat % widthBytes w = 0 →
      let e := s.served .drive true []
      let word (off : Nat) (k : Nat) : Nat :=
        ofLe (Memory.readBytes (storeAt s.dram (Config.mapPage + off + lane.toNat) w v) (Config.mapPage + k) 4)
      let put (off : Nat) : State := { e with dram := storeAt s.dram (Config.mapPage + off + lane.toNat) w v }
      (w ≠ .w8 →
        exec (.completionHeadWrite .drive lane w v) s
          = .next (({ put 256 with cw := { s.cw with head := word 256 256 } } : State).tryRecord.judgeAttn).finish
        ∧ exec (.sensorHeadWrite .drive lane w v) s
          = .next (({ put 260 with ss := { s.ss with head := word 260 260 } } : State).judgeAttn).finish
        ∧ exec (.attentionMaskWrite .drive lane w v) s
          = .next (({ put 264 with cw := { s.cw with mask := word 264 264 } } : State).judgeAttn).finish)
      ∧ (s.MemoryOk → exec (.completionHeadWrite .drive 0 .w4 v) s
          = .next (({ s.served .drive true [] with
              dram := storeAt s.dram (Config.mapPage + 256) .w4 v
              cw := { s.cw with head := v.toNat % 4294967296 } } : State).tryRecord.judgeAttn).finish)
      ∧ (w = .w8 →
        let h := ({ put 256 with cw := { s.cw with head := word 256 256 } } : State).tryRecord.judgeAttn
        let m := ({ put 264 with cw := { s.cw with mask := word 264 264 } } : State).judgeAttn
        exec (.completionHeadWrite .drive lane w v) s
          = .next (({ h with ss := { s.ss with head := word 256 260 } } : State).judgeAttn).finish
        ∧ exec (.attentionMaskWrite .drive lane w v) s
          = .next (if word 264 268 = 1 then m.controllerReset else m).finish))
  ∧ (∀ (s : State) (lane : BitVec 2) (w : Width) (v : BitVec 64),
      s.PortFree .drive → w ≠ .w8 → lane.toNat % widthBytes w = 0 →
      let e : State := { s.served .drive true [] with dram := storeAt s.dram (Config.mapPage + 268 + lane.toNat) w v }
      exec (.resetWordWrite .drive lane w v) s
        = .next (if ofLe (Memory.readBytes e.dram (Config.mapPage + 268) 4) = 1 then e.controllerReset else e).finish)

/-- R36, R37, R61, R81, R93, R104, R134, R148, R159, R180, R181, R190: what a controller reset leaves and what it keeps; the posted
lines are written to DRAM, oldest first, and every access not yet answered, held or waiting for the port, is answered ERROR. The Cartridge Memory Link abandons its operation and keeps its copies and dirty marks; a
load read leaves the condition ABSENT, an invalidation write or a header write of the save the recorded flag UNKNOWN (R138). That
the data-set position kept is in a write session the boundary it was opened at is the MODEL's choice (log entry 91). -/
def Obligations.ControllerResetLeaves : Prop :=
  ∀ s : State,
    let t := s.controllerReset
    (t.dram = s.bpu.upstream.foldl (fun d r =>
          match r with
          | .line block bytes => Memory.writeMarked d block bytes
          | .access _ => d) s.dram
      ∧ (s.cml.op = none → t.cartridge = s.cartridge) ∧ t.now = s.now ∧ t.pending = s.pending)
    ∧ (t.bpu.effective = List.replicate 16 Descriptor.blank ∧ t.bpu.held = [] ∧ t.bpu.captured = s.bpu.captured
      ∧ (∀ r, t.bpu.starve.get r = 0) ∧ t.bpu.upstream = []
      ∧ (∀ a : Access, (∃ h ∈ s.bpu.held, h.access = a) ∨ .access a ∈ s.bpu.upstream →
          ∃ x, (match a.who with | .drive => t.bpu.driveAnswer | .link => t.bpu.linkAnswer) = some x ∧ x.okay = false
            ∧ ∀ b ∈ x.bytes, b = 0)
      ∧ (∀ who, s.busy who = false →
          (match who with | .drive => t.bpu.driveAnswer | .link => t.bpu.linkAnswer)
            = match who with | .drive => s.bpu.driveAnswer | .link => s.bpu.linkAnswer))
    ∧ (t.spm = { s.spm with
          slots := [], direction := .none, sealTimer := none, sealing := none, clearing := false, dropFrom := none })
    ∧ (t.pe.intake = [] ∧ t.pe.current = none ∧ t.pe.next = none ∧ t.pe.cursor = 0 ∧ t.pe.fifo = [] ∧ t.pe.coder = .idle
      ∧ t.pe.nextRecord = 0 ∧ t.pe.compression = s.pe.compression)
    ∧ (t.tte.inFlight = none ∧ t.tte.verify = none ∧ t.tte.fifo = [] ∧ t.tte.cause = none ∧ t.tte.loopback = none
      ∧ t.tte.read = none ∧ t.tte.writePoint = none)
    ∧ (t.ue.state = .idle ∧ t.ue.output = [] ∧ t.ue.cursor = 0)
    ∧ (t.rg.level = s.rg.level ∧ t.rg.f = 0 ∧ t.rg.sampleTime = none ∧ t.rg.target = none ∧ t.rg.runLength = none
      ∧ t.rg.stopKind = .none)
    ∧ (t.mc.pos = s.mc.pos ∧ t.mc.dsPos = s.mc.dsPos ∧ t.mc.job = none ∧ t.mc.speedFaults = 0 ∧ t.mc.thermal = .normal
      ∧ t.mc.travel = .stopped
      ∧ t.mc.state = (match s.mc.state with
          | .threading => .threading | .unthreading => .unthreading | .empty => .empty | .present | .cleaning => .present
          | .fault => .fault | .stranded => .stranded | _ => .ready))
    ∧ (t.cml.op = none ∧ t.cml.counters = s.cml.counters ∧ t.cml.identity = s.cml.identity ∧ t.cml.dirty = s.cml.dirty
      ∧ (match s.cml.op.map LinkOp.kind with
        | some .loadRead => t.cml.condition = .absent ∧ t.cml.directory = none
        | _ => t.cml.condition = s.cml.condition ∧ t.cml.directory = s.cml.directory)
      ∧ t.cml.recorded = (match s.cml.op.map fun o : LinkOp => (o.kind, o.steps.head?) with
        | some (.invalidate _, _) => .unknown
        | some (.save, some (.write 2)) => .unknown
        | _ => s.cml.recorded))
    ∧ (t.ss.latest = s.ss.latest ∧ t.ss.plan = Plan.default_ ∧ t.ss.stamp = 0 ∧ t.ss.tail = 0 ∧ t.ss.head = 0
      ∧ t.ss.drops = 0)
    ∧ (t.hm.ci = s.hm.ci ∧ t.hm.health = s.hm.health ∧ t.hm.wear = s.hm.wear ∧ t.hm.last = s.hm.last
      ∧ t.pins.panel = s.pins.panel)
    ∧ (t.ci.intake = 0 ∧ t.ci.outstanding = [] ∧ t.cw.pending = [] ∧ t.cw.tail = 0 ∧ t.cw.head = 0 ∧ t.cw.mask = 0
      ∧ t.cw.attn = (fieldAt s.cw.shown 4 2 != 0))

/-- R171, R172: a write of the link chip anywhere in the map page, by whichever row, is answered ERROR without use of the port;
so is a write of the drive processor beyond the 272 bytes of the page that are its own to write. -/
def Obligations.LinkMayNotWriteTheMap : Prop :=
  (∀ (s : State) (i : BitVec 4) (lane : BitVec 3) (part : BitVec 2) (w : Width) (v : BitVec 64),
    s.busy .link = false → s.bpu.rewrites = 0 →
    ∀ c ∈ [Instr.descriptorWrite .link i lane w v, .descriptorCommit .link i lane w v, .completionHeadWrite .link part w v,
        .sensorHeadWrite .link part w v, .attentionMaskWrite .link part w v, .resetWordWrite .link part w v],
      exec c s = .next (s.answer .link false []).finish)
  ∧ ∀ (s : State) (who : Initiator) (addr : Nat) (w : Width) (v : BitVec 64),
    s.busy who = false → s.bpu.rewrites = 0 → addr < 536870912 →
    (match who with
      | .link => 536866816 ≤ addr
      | .drive => 536866816 + 272 ≤ addr) →
    ∀ c ∈ writeRows who addr w v, exec c s = .next (s.answer who false []).finish

/-! ### Accesses (R171, R176, R177) -/

/-- R171: an access that is unaligned or beyond 512 MiB is answered ERROR and not performed; a read returns zeros. -/
def Obligations.MalformedAccessesRefused : Prop :=
  ∀ (s : State) (who : Initiator) (w : Width) (v : BitVec 64), s.busy who = false →
    (∀ addr : Nat, addr % widthBytes w ≠ 0 ∨ 536870912 ≤ addr →
      (∀ c ∈ writeRows who addr w v, exec c s = .next (s.answer who false []).finish)
      ∧ exec (.unpackRead who addr w) s = .next (s.answer who false (zeros (widthBytes w))).finish)
    ∧ (∀ (i : BitVec 4) (lane : BitVec 3), lane.toNat % widthBytes w ≠ 0 →
      exec (.descriptorWrite who i lane w v) s = .next (s.answer who false []).finish
      ∧ exec (.descriptorCommit who i lane w v) s = .next (s.answer who false []).finish)
    ∧ (∀ lane : BitVec 2,
      (lane.toNat % widthBytes w ≠ 0 →
        exec (.completionHeadWrite who lane w v) s = .next (s.answer who false []).finish
        ∧ exec (.attentionMaskWrite who lane w v) s = .next (s.answer who false []).finish)
      ∧ ((4 + lane.toNat) % widthBytes w ≠ 0 →
        exec (.sensorHeadWrite who lane w v) s = .next (s.answer who false []).finish
        ∧ exec (.resetWordWrite who lane w v) s = .next (s.answer who false []).finish))

/-- R34, R176, R177, R183: an allowed write to PLAIN, unmapped or COMMAND memory is posted and answered OKAY at once, or held with
all four lines in use; a write not allowed, or to a COMPLETION or SENSOR ring, is refused without the port; a write to UNPACK
backing memory or a FREE slot of the pool is granted the port and performed, one to another slot answered ERROR. Where other
requests wait at the port before it such a write waits behind them, marked with the class of its arrival (the MODEL's reading,
log entry 17, DEDUCED). -/
def Obligations.UpstreamWritesByKind : Prop :=
  (∀ (s : State) (who : Initiator) (addr : Nat) (w : Width) (v : BitVec 64),
      s.Arrives who addr w → addr < Config.mapPage →
      (∀ i d, s.classify addr = .region i d → d.allows who = true ∧ (d.kind = .plain ∨ d.kind = .command)) →
      let a := writeOf who addr w v
      ∀ c ∈ writeRows who addr w v,
        (∀ b, s.bpu.post a = some b →
          exec c s = .next ((({ s with bpu := b } : State).answer who true []).showCommand a).finish)
        ∧ (s.bpu.post a = none →
          exec c s = .next (State.finish ((s.clearAnswer who).onBpu fun b =>
            { b with held := b.held ++ [{ access := a, why := .line, descriptor := none, timer := none }] }))))
  ∧ (∀ (s : State) (who : Initiator) (addr : Nat) (w : Width) (v : BitVec 64) (i : Nat) (d : Descriptor),
      s.Arrives who addr w → s.classify addr = .region i d →
      ∀ c ∈ writeRows who addr w v,
        (d.allows who = false ∨ d.kind = .completion ∨ d.kind = .sensor → exec c s = .next (s.answer who false []).finish)
        ∧ (s.PortFree who → d.allows who = true → d.kind = .unpack →
          exec c s = .next (State.finish { s.served who true [] with dram := storeAt s.dram addr w v }))
        ∧ (s.PortFree who → d.allows who = true → d.kind = .pool →
          exec c s = .next
            (if s.inFreeSlot addr then State.finish { s.served who true [] with dram := storeAt s.dram addr w v }
             else (s.served who false []).finish))
        ∧ (s.bpu.upstream ≠ [] → d.allows who = true → d.kind = .unpack ∨ d.kind = .pool →
          exec c s = .next (State.finish ((s.clearAnswer who).onBpu fun b =>
            { b with upstream := b.upstream ++ [.access { writeOf who addr w v with pool := d.kind == .pool }] }))))

/-- R177: a posted write merges into its block's line, takes an empty line, or with four lines in use finds none; and every
read of DRAM through the buffer then sees the bytes posted, and only those anew. -/
def Obligations.PostedBytesAreSeen : Prop :=
  ∀ (s : State) (a : Access) (b : Bpu),
    a.addr % widthBytes a.width = 0 →
    (∀ (k : Nat) (l : List (Option Byte)), UpReq.line k l ∈ s.bpu.upstream → k % 8 = 0) →
    (s.bpu.upstream.filterMap fun r => match r with | .line k _ => some k | .access _ => none).Nodup →
    s.bpu.post a = some b →
    (∀ x : Nat, ({ s with bpu := b } : State).seen x
        = if a.addr ≤ x ∧ x < a.addr + widthBytes a.width then (toLe (widthBytes a.width) a.value.toNat).getD (x - a.addr) 0
          else s.seen x)
    ∧ b.lines ≤ max 4 s.bpu.lines
    ∧ (b.upstream.filterMap fun r => match r with | .line k _ => some k | .access _ => none).Nodup

/-- R41, R42, R178: a pack write examined as it arrives, by the cases in their order; taken, its bytes enter the FIFO, the
cursor advances modulo the aperture and the bytes are counted against the records. -/
def Obligations.PackWriteExamined : Prop :=
  ∀ (s : State) (who : Initiator) (addr : Nat) (w : Width) (v : BitVec 64) (i : Nat) (d : Descriptor),
    s.Arrives who addr w → s.classify addr = .region i d → d.kind = .pack → d.allows who = true →
    let off := addr - d.base
    let n := widthBytes w
    ∀ c ∈ writeRows who addr w v,
      exec c s = .next (State.finish
        (if s.spm.direction = .writeFailed then s.answer who false []
         else if off ≠ s.pe.cursor then { s.answer who false [] with pe := s.pe.refuse }
         else if s.pe.remaining = 0 then s.leftHeld (writeOf who addr w v) .pack i d
         else if s.pe.remaining < n then s.answer who false []
         else if 256 < s.pe.fifo.length + n then s.leftHeld (writeOf who addr w v) .pack i d
         else { s.answer who true [] with
                pe := { s.pe with
                  fifo := s.pe.fifo ++ toLe n v.toNat
                  cursor := if 4096 * d.pages ≤ s.pe.cursor + n then 0 else s.pe.cursor + n }.count n }))

/-- R38, R39, R41, R42: a command of the intake order takes the record numbers from the next one on; a STREAM_RECORD adds its raw
lengths to the remaining length, bytes counted against the records lower it by as many, a WRITE_MARK and a sequence refusal leave
it; no next list ever stands without a current one. -/
def Obligations.IntakeAccounts : Prop :=
  ((∀ (p : Pe) (n : Nat), n ≤ p.remaining → (p.next = none ∨ p.current ≠ none) →
        (p.count n).remaining + n = p.remaining ∧ ((p.count n).next = none ∨ (p.count n).current ≠ none))
    ∧ ∀ p : Pe, p.refuse = { p with intake := p.refuse.intake } ∧ p.refuse.intake.length = p.intake.length)
  ∧ ((∀ (p : Pe) (id : Nat) (lengths : List Nat) (early : Bool), p.next = none →
        let q := p.takeStream id lengths early
        q.nextRecord = p.nextRecord + lengths.length ∧ q.remaining = p.remaining + lengths.sum
        ∧ q.intake = p.intake ++
            [{ id := id, mark := false, sync := false, first := p.nextRecord, lengths := lengths, placed := 0, early := early
               refusals := 0, coded := 0, synced := false }]
        ∧ (q.next = none ∨ q.current ≠ none))
    ∧ ∀ (p : Pe) (id count : Nat) (sync early : Bool),
        let q := p.takeMark id count sync early
        q.nextRecord = p.nextRecord + count ∧ q.remaining = p.remaining
        ∧ q.intake = p.intake ++
            [{ id := id, mark := true, sync := sync, first := p.nextRecord, lengths := List.replicate count 0, placed := 0
               early := early, refusals := 0, coded := 0, synced := false }])

/-- R96, R176, R178: an unpack read of an allowed initiator by the cases in their order; any other read passes to the port and
sees DRAM with the posted bytes laid over it (R177). -/
def Obligations.UpstreamReads : Prop :=
  ∀ (s : State) (who : Initiator) (addr : Nat) (w : Width), s.Arrives who addr w →
    let n := widthBytes w
    let a := readOf who addr w
    ((∀ i d, s.classify addr = .region i d → d.kind ≠ .unpack ∨ d.allows who = false) → s.PortFree who →
      exec (.unpackRead who addr w) s = .next (s.served who true (s.seenBytes addr n)).finish)
    ∧ ∀ (i : Nat) (d : Descriptor), s.classify addr = .region i d → d.kind = .unpack → d.allows who = true →
      let whole := (s.ue.record.map fun r => r.produced == r.raw).getD false
      exec (.unpackRead who addr w) s = .next (State.finish
        (if s.ue.state = .idle then s.leftHeld a .unpack i d
         else if addr - d.base ≠ s.ue.cursor % (4096 * d.pages) ∨ s.ue.length < s.ue.cursor + n then
           s.answer who false (zeros n)
         else if s.ue.state = .opening then s.leftHeld a .unpack i d
         else if n ≤ s.ue.output.length ∨ whole = true then
           let e := s.answer who true (s.ue.output.take n ++ zeros (n - s.ue.output.length))
           if s.ue.cursor + n = s.ue.length then
             State.finishDelivery { e with ue := { s.ue with cursor := s.ue.cursor + n, output := [], state := .finishing } }
           else { e with ue := { s.ue with cursor := s.ue.cursor + n, output := s.ue.output.drop n } }
         else s.leftHeld a .unpack i d))

/-- R178: when the hold limit runs out, the rest of its time passes and the access is answered ERROR; nothing of it is
consumed. -/
def Obligations.HoldLimitRunsOut : Prop :=
  ∀ (s : State) (who : Initiator) (h : Held) (n : Nat),
    (s.bpu.held.find? fun k => k.access.who == who && k.timer.isSome) = some h → h.timer = some n →
    let e := s.elapse n
    exec (.holdLimitExpiry who) s = .next
      (State.finish (({ e with bpu := { e.bpu with held := e.bpu.held.filter fun k => k.access.who != who } } : State).answerError
        h.access))

/-! ### The DRAM port (R179) -/

/-- R179: a requester that waits with a count of 64 is served before every other; else the fixed order decides; a grant is made
whenever one waits, and after it every other requester that waits has its count one higher, the rest 0. -/
def Obligations.ArbiterChoice : Prop :=
  ∀ s : State,
    ((∃ r, s.waits r = true) ↔ s.choice.isSome = true)
    ∧ (∀ r, s.choice = some r → s.waits r = true)
    ∧ (∀ r q, s.choice = some r → s.waits q = true → 64 ≤ s.bpu.starve.get q → 64 ≤ s.bpu.starve.get r)
    ∧ ((∀ q, s.waits q = true → s.bpu.starve.get q < 64) →
        (s.tteUrgent = true → s.choice = some .tte)
        ∧ (s.tteUrgent = false → s.waits .upstream = true → s.choice = some .upstream)
        ∧ (s.waits .upstream = false → s.waits .tte = true → s.choice = some .tte)
        ∧ (s.waits .upstream = false → s.waits .tte = false → s.waits .pack = true → s.choice = some .pack)
        ∧ (s.choice = some .ring → s.waits .upstream = false ∧ s.waits .tte = false ∧ s.waits .pack = false
            ∧ s.waits .unpack = false))
    ∧ ∀ r q : Requester,
        (s.countGrant r).bpu.starve.get q = if q = r ∨ s.waits q = false then 0 else s.bpu.starve.get q + 1

/-- R177, R179: DRAM_PORT_GRANT gives the port to the oldest upstream request: a posted line writes its marked bytes and is empty,
a read or write is performed. R34, R176: of the unposted writes outside the map page one that its arrival classified as a POOL
write is performed where its slot is FREE and else answered ERROR, any other passes, whatever a commit made of the address since
(the MODEL's reading, log entry 17, DEDUCED). R61, R67, R86, R170: granted to the Tape Transfer Engine it moves up to 64 bytes
within an aligned block, a fetch from the slot into the channel FIFO, a store from the FIFO into the slot. R22, R53: granted to
the Pack Engine it places coded bytes after the slot's data bytes, or the closed piece's entry in the stripe's directory, or makes
the next sealing write, the last of which makes the slot SEALED. R67, R86, R170: the bytes that the channel takes beside a grant
leave the FIFO and count as sent for the stripe in transfer or the LOOPBACK, and those that it delivers to a started reception
enter the FIFO, one that finds it full marking the overrun; that they move just before the arbiter chooses is the MODEL's choice
(log entry 9). R93: granted to the Unpack Engine it fetches coded bytes for the decoder, and DRAM stays as it is; that it asks for
them while fewer than 64 wait is the MODEL's choice (log entry 88), and so is that the Tape Transfer Engine asks for a fetch while
its FIFO has room for 64 bytes (log entry 99). -/
def Obligations.GrantServesUpstream : Prop :=
  ∀ s : State,
    let e (r : Requester) : State := { s with bpu := { s.bpu with starve := (s.countGrant r).bpu.starve } }
    let granted : Host.Outcome State Fault Refusal := exec (.dramPortGrant .quiet) s
    (∀ rest, s.choice = some .upstream →
      let u : State := { s with bpu := { s.bpu with upstream := rest, starve := (s.countGrant .upstream).bpu.starve } }
      (∀ block bytes, s.bpu.upstream = .line block bytes :: rest →
        granted = .next (State.finish { u with dram := Memory.writeMarked s.dram block bytes }))
      ∧ ∀ a, s.bpu.upstream = .access a :: rest →
        granted = .next (u.performAccess a).finish
        ∧ (a.write = true → a.addr < Config.mapPage →
          granted = .next (if a.pool = false ∨ s.inFreeSlot a.addr = true then
              State.finish { u.answer a.who true [] with dram := storeAt s.dram a.addr a.width a.value }
            else (u.answer a.who false []).finish)))
    ∧ (∀ i n, s.choice = some .tte → s.slotBase i + Config.stripeSize ≤ Config.dramSize →
      let a := s.slotBase i + n
      let k := min (64 - a % 64) (Config.stripeSize - n)
      (s.tteWork = some (.fetch i n) →
        granted = .next (State.finish
          { e .tte with tte := Tte.fetchedMore { s.tte with fifo := s.tte.fifo ++ Memory.readBytes s.dram a k } k }))
      ∧ (s.tteWork = some (.store i n) →
        let m := min k s.tte.fifo.length
        granted = .next (State.finish
          { e .tte with
            dram := Memory.writeBytes s.dram a (s.tte.fifo.take m)
            tte := { s.tte with
              fifo := s.tte.fifo.drop m
              read := s.tte.read.map fun r =>
                { r with reception := r.reception.map fun x => { x with stored := x.stored + m } } } })))
    ∧ (s.choice = some .pack →
      (∀ i, s.packWork = some (.bytes i) → s.slotBase i + Config.stripeSize ≤ Config.dramSize →
        let x := s.slotAt i
        let a := s.slotBase i + 64 + x.dataBytes
        let k := min (min s.pe.output.length (freeSpace x.dataBytes x.entries)) (64 - a % 64)
        ∃ u : State, granted = .next u.finish ∧ u.finish.dram = Memory.writeBytes s.dram a (s.pe.output.take k)
          ∧ (∀ b, b < a ∨ a + k ≤ b → Memory.read u.finish.dram b = Memory.read s.dram b)
          ∧ (k < freeSpace x.dataBytes x.entries →
            u.pe.output = s.pe.output.drop k ∧ (u.slotAt i).dataBytes = x.dataBytes + k))
      ∧ (∀ i, s.packWork = some (.entry i) → s.slotBase i + Config.stripeSize ≤ Config.dramSize →
        let a := s.slotBase i + entryOffset ((s.slotAt i).entries - 1)
        ∃ u : State, granted = .next u.finish ∧ u.finish.dram = Memory.writeBytes s.dram a (s.openEntry i true)
          ∧ (∀ b, b < a ∨ a + 16 ≤ b → Memory.read u.finish.dram b = Memory.read s.dram b) ∧ u.pe.entryOpen = false)
      ∧ ∀ j a bytes rest, s.packWork = some (.seal j) → j.writes = (a, bytes) :: rest →
        (∀ w ∈ j.writes, w.1 + w.2.length ≤ Config.dramSize) →
        ∃ u : State, granted = .next u.finish ∧ u.finish.dram = Memory.writeBytes s.dram a bytes
          ∧ (∀ b, b < a ∨ a + bytes.length ≤ b → Memory.read u.finish.dram b = Memory.read s.dram b)
          ∧ (rest ≠ [] → u.spm = { s.spm with sealing := some { j with writes := rest } })
          ∧ (rest = [] → u.spm.sealing = none ∧ u.spm.sealTimer = none
            ∧ ((s.slotAt j.slot).state = .filling → (u.slotAt j.slot).state = .sealed ∧ (u.slotAt j.slot).copy = some 0)))
    ∧ (let quiet (t : State) : Host.Outcome State Fault Refusal := exec (.dramPortGrant .quiet) t
      let left := s.tte.fifo.length
      (∀ n,
        let k := min n left
        let taken : Host.Outcome State Fault Refusal := exec (.dramPortGrant (.taken n)) s
        (∀ f, s.tte.inFlight = some f →
          (f.transfer = true → taken = quiet
            { s with tte := { s.tte with fifo := s.tte.fifo.drop k, inFlight := some { f with sent := f.sent + k } } })
          ∧ (f.transfer = false → taken = quiet s))
        ∧ (∀ l, s.tte.inFlight = none → s.tte.loopback = some l → taken = quiet
            { s with tte := { s.tte with fifo := s.tte.fifo.drop k, loopback := some { l with sent := l.sent + k } } })
        ∧ (s.tte.inFlight = none → s.tte.loopback = none → taken = quiet s))
      ∧ ∀ bytes : List Byte,
        let delivered : Host.Outcome State Fault Refusal := exec (.dramPortGrant (.delivered bytes)) s
        (∀ r x, s.tte.read = some r → r.reception = some x → x.started = true → delivered = quiet
          { s with tte := { s.tte with
              fifo := s.tte.fifo ++ bytes.take (16384 - left)
              read := some { r with reception := some { x with
                overrun := x.overrun || decide (16384 - left < bytes.length) } } } })
        ∧ ((∀ r x, s.tte.read = some r → r.reception = some x → x.started = false) → delivered = quiet s))
    ∧ ∀ d, s.choice = some .unpack → s.unpackWork = some d → s.slotBase d.slot + Config.stripeSize ≤ Config.dramSize →
      let a := s.slotBase d.slot + d.pieceAt + d.fetched
      let k := min (64 - a % 64) (d.pieceLength - d.fetched)
      granted = .next (State.finish
        { e .unpack with ue := { s.ue with
            decoder := { s.ue.decoder with input := s.ue.decoder.input ++ Memory.readBytes s.dram a k }
            record := some { d with fetched := d.fetched + k } } })

/-- R183, R187, R189: a completion record writes the oldest pending item's 32 bytes at the tail's slot and asks for the status
write; that status write raises the tail and takes the command out of the outstanding list. The CI-unit's read of a slot takes the
command it spells, advances the intake index and asks for the post word to be written back with valid clear. R158, R179 to R181,
R190: DRAM_PORT_GRANT, given to place 6 of the arbiter, makes the transfer of its oldest request: a zero of a controller reset
over a descriptor, a head, the mask or the reset word, captured with it (the MODEL's reading, log entry 63, DEDUCED); a post word
written back, which a post that waits in a line for it gives way to (the MODEL's choice, log entry 19); or a read of the post
word, on which a valid one asks for the slot where fewer than 16 commands are outstanding; or the transfer of a record, of the
part status block or of a slot. What the channel did since the last grant comes before each of these (the MODEL's choice, log
entry 9; GrantServesUpstream says what it moves). -/
def Obligations.RingsAreServed : Prop :=
  ((∀ (s : State) (i : Item) (rest : List Item), s.cw.pending = i :: rest → s.ringSlots .completion 32 ≠ 0 →
        let t := s.writeRecord
        t.dram = Memory.writeBytes s.dram (s.ringAddr .completion 32 s.cw.tail) (i.bytes s.free)
        ∧ t.cw.pending = rest ∧ t.cw.tail = s.cw.tail ∧ t.cw.tailDue = some i ∧ t.cw.statusAsked = true
        ∧ t.cw.recordAsked = false ∧ t.ci = s.ci)
    ∧ ∀ (s : State) (i : Item), s.cw.tailDue = some i → s.ringSlots .completion 32 ≠ 0 →
        let t := s.writeStatus
        t.cw.tail = (s.cw.tail + 1) % s.ringSlots .completion 32 ∧ t.cw.tailDue = none
        ∧ (∀ id, i.cmd = some id → t.ci.outstanding = s.ci.outstanding.filter fun u => u.id != id)
        ∧ (i.cmd = none → t.ci = s.ci)
        ∧ (∀ a, a < Config.mapPage + 384 ∨ Config.mapPage + 408 ≤ a → Memory.read t.dram a = Memory.read s.dram a))
  ∧ (∀ s : State, s.ci.outstanding.length < 16 → s.ringSlots .command 64 ≠ 0 →
      let a := s.ringAddr .command 64 s.ci.intake
      let slot := s.seenBytes a 64
      let post := slot.drop 56
      s.takeSlot = State.takeCmd
        (State.askPost { s with
          bpu := { s.bpu with ring := s.bpu.ring ++ [.clearPost (a + 56) (post.take 7 ++ [post.getD 7 0 &&& 254#8])] }
          ci := { s.ci with intake := (s.ci.intake + 1) % s.ringSlots .command 64 } })
        (BitVec.ofNat 16 (fieldAt slot 58 2)) (slot.getD 57 0) (postMalformed post)
        (decodeCmd (fieldAt slot 56 1) (slot.take 56)))
  ∧ (∀ (s : State) (flow : ChannelFlow), exec (.dramPortGrant flow) s = exec (.dramPortGrant .quiet) (s.channelFlow flow))
  ∧ ∀ (s : State) (r : RingReq) (rest : List RingReq), s.choice = some .ring → s.bpu.ring = r :: rest →
      let u : State := { s with bpu := { s.bpu with ring := rest, starve := (s.countGrant .ring).bpu.starve } }
      let granted : Host.Outcome State Fault Refusal := exec (.dramPortGrant .quiet) s
      let zeroed (off : Nat) : State := { u with dram := Memory.writeBytes s.dram (Config.mapPage + off) (zeros 4) }
      let post := s.ringAddr .command 64 s.ci.intake
      (∀ i, r = .zeroDescriptor i →
        granted = .next (State.finish
          { u with
            dram := Memory.writeBytes s.dram (Config.mapPage + 16 * i) (zeros 16)
            bpu := { u.bpu with
              captured := layOver s.bpu.captured (16 * i) (zeros 16), rewrites := s.bpu.rewrites - 1 } }))
      ∧ (s.MemoryOk →
        (r = .zeroWord 268 →
          granted = .next (State.finish { zeroed 268 with bpu := { u.bpu with rewrites := s.bpu.rewrites - 1 } }))
        ∧ (r = .zeroWord 256 →
          granted = .next (({ zeroed 256 with cw := { s.cw with head := 0 } } : State).tryRecord.judgeAttn).finish)
        ∧ (r = .zeroWord 260 →
          granted = .next (({ zeroed 260 with ss := { s.ss with head := 0 } } : State).judgeAttn).finish)
        ∧ (r = .zeroWord 264 →
          granted = .next (({ zeroed 264 with cw := { s.cw with mask := 0 } } : State).judgeAttn).finish))
      ∧ (∀ a bytes, r = .clearPost a bytes → a + 8 ≤ Config.dramSize →
        granted = .next (State.finish
          { u with
            dram := Memory.writeBytes s.dram a bytes
            bpu := { u.bpu with
              upstream := s.bpu.upstream.map fun q =>
                match q with
                | .line block l => if block = a then .line block [] else .line block l
                | .access x => .access x } }))
      ∧ (post + 64 ≤ Config.dramSize →
        (r = .readPost →
          granted = .next (State.finish
            (if s.ringSlots .command 64 ≠ 0 ∧ bitOf (s.seen (post + 63)) 0 = true ∧ s.ci.outstanding.length < 16
                ∧ RingReq.readSlot ∉ rest then
              { u with bpu := { u.bpu with ring := rest ++ [.readSlot] } } else u)))
        ∧ (r = .readSlot → granted = .next u.takeSlot.finish))
      ∧ (r = .completion → s.ringAddr .completion 32 s.cw.tail + 32 ≤ Config.dramSize → granted = .next u.writeRecord.finish)
      ∧ (r = .status → granted = .next u.writeStatus.finish)
      ∧ ∀ i bytes, r = .sensor i bytes → s.ringAddr .sensor 32 s.ss.tail + 32 ≤ Config.dramSize →
        granted = .next (u.writeSensor i bytes).finish

/-! ### Power-on and the cartridge (R116, R118, R135, R180) -/

/-- R116, R180: power-on takes the motion state from its inputs and leaves all else as reset does; a cartridge put in gives
PRESENT and its note, one taken out EMPTY, its note, no directory, and THREAD_FAILED for a command in progress. The MODEL's
choices: the queue, the model's clock and its counter of free values go on (log entry 46), the bytes of DRAM stay as they were
(log entry 4), and a removal resets the whole Cartridge Memory Link, also during a counter write, whose counters R148 has as
before (log entry 73); and the note of a removal joins the pending list before that completion (log entry 125). -/
def Obligations.PowerOnAndCartridge : Prop :=
  (∀ (s : State) (present tape wp : Bool) (mem : List Host.Cell), ∃ t,
    exec (.powerOnReset present tape wp mem) s = .next t
    ∧ t.mc.state = (if tape then .stranded else if present then .present else .empty)
    ∧ t.pins = { present := present, tapeInPath := tape, writeProtect := wp, panel := false }
    ∧ t.cartridge = Memory.ofCells 32768 mem ∧ t.pending = s.pending ∧ t.now = s.now ∧ t.free = s.free ∧ t.dram = s.dram
    ∧ State.reset = { t with
        now := 0, free := 0, dram := [], cartridge := [], pins := State.reset.pins, mc := { t.mc with state := .empty }, pending := [] })
  ∧ (∀ (s : State) (wp : Bool) (mem : List Host.Cell), s.mc.state = .empty →
    exec (.cartridgeInserted wp mem) s = .next
      (State.finish (State.note
        { s with pins := { s.pins with present := true, writeProtect := wp }, cartridge := Memory.ofCells 32768 mem
                 mc := { s.mc with state := .present } } .cartridgePresent noDetail noDetail)))
  ∧ ∀ s : State, s.mc.state = .present →
    let e := State.note
      { s with pins := { s.pins with present := false }, cartridge := [], mc := { s.mc with state := .empty, job := none }
               cml := Cml.reset, hm := { s.hm with cleaning := .none } } .cartridgeRemoved noDetail noDetail
    exec .cartridgeRemoval s = .next
      (match s.mc.job with
        | some j => e.complete j.id .threadFailed noDetail (dv 1 2 ++ du 7)
        | none => e).finish

/-- R117, R118: LOAD in PRESENT begins with the load read, which waits while another link operation is in flight (R136); UNLOAD answers at once in EMPTY and PRESENT, waits for the records
under WRITE_OPEN, and from FAULT or STRANDED begins the slow recovery. -/
def Obligations.LoadAndUnloadBegin : Prop :=
  ∀ (s : State) (tag : BitVec 16) (flags : BitVec 8), s.Takes flags → s.ci.motionQueue = [] → s.motionServed = true →
    (exec (.load tag flags) s = .next
      (if s.mc.state = .present then
          State.takenMotion
            { s with
              mc := { s.mc with job := some (Job.new s.ci.nextId .load .memory) }
              cml := { s.cml with
                op := s.cml.op.or (some { kind := .loadRead, steps := [.read 0 192], retries := 0, wait := none, got := []
                                          aborted := false }) } }
            tag flags .load .running
        else s.takenDone tag flags .load .refusedState noDetail noDetail).finish)
    ∧ (s.mc.state = .empty →
        exec (.unload tag flags) s = .next (s.takenDone tag flags .unload .refusedState noDetail noDetail).finish)
    ∧ (s.mc.state = .present →
        exec (.unload tag flags) s = .next (s.takenDone tag flags .unload .ok (dv 1 0 ++ du 7) noDetail).finish)
    ∧ (s.mc.state = .ready → s.spm.direction = .writeOpen →
        exec (.unload tag flags) s = .next
          (State.takenMotion { s with mc := { s.mc with job := some (Job.new s.ci.nextId .unload .intake) } } tag flags .unload
            .running).finish)
    ∧ (s.mc.state = .ready → s.spm.direction = .none →
        exec (.unload tag flags) s = .next
          (State.takenMotion
            { s with mc := { s.mc with job := some (Job.new s.ci.nextId .unload .emptying) } } tag flags .unload .running).finish)
    ∧ (s.mc.state = .fault ∨ s.mc.state = .stranded → s.spm.direction = .none →
        exec (.unload tag flags) s = .next
          (State.takenMotion
            { s with
              mc := { s.mc with
                loopOn := true, torqueA := 1024, torqueB := 1024, tensionUpRun := 0, tensionUp := false
                recovery := some 3200000, tensionFaults := 0
                job := some { Job.new s.ci.nextId .unload .recoverTension with
                  saveCode := 4, stranded := s.mc.state == .stranded } } } tag flags .unload .running).finish)

/-- R115, R120, R126, R127, R129, R131: a move is refused where the tape is not in READY or reading ahead, or a write session
is open; refused for its arguments; else, with no session, it begins from READY: REWIND shuttles to the beginning of tape, the
others where their rules send them. That a SPACE with count 0 leaves the read side as it is, where one in READ_OPEN else clears it
first, is the MODEL's choice (log entry 94). -/
def Obligations.MovesBegin : Prop :=
  ∀ (s : State) (tag : BitVec 16) (flags : BitVec 8) (kind : BitVec 8) (target count : BitVec 32),
    s.Takes flags → s.ci.motionQueue = [] → s.motionServed = true →
    let job (k : MotionKind) : Job := Job.new s.ci.nextId k .toStart
    let plan : SpacePlan :=
      { filemarks := kind.toNat == 1, count := count.toInt, origin := (s.mc.dsPos.map (·.record)).getD 0 }
    (s.moveRefused = true →
      exec (.rewind tag flags) s = .next (s.takenDone tag flags .rewind .refusedState noDetail noDetail).finish
      ∧ exec (.locate tag flags kind target) s
          = .next (s.takenDone tag flags (.locate kind.toNat target.toNat) .refusedState noDetail noDetail).finish
      ∧ exec (.locateEod tag flags) s = .next (s.takenDone tag flags .locateEod .refusedState noDetail noDetail).finish
      ∧ exec (.space tag flags kind count) s
          = .next (s.takenDone tag flags (.space kind.toNat count.toInt) .refusedState noDetail noDetail).finish)
    ∧ (s.moveRefused = false → s.spm.direction = .none →
      exec (.rewind tag flags) s = .next
        (State.takenMotion
          { s with mc := { s.mc.shuttle { pass := 0, mark := 0 } with
              job := some { Job.new s.ci.nextId .rewind .toPlace with
                finish := some
                  { result := .ok, detailA := noDetail, detailB := noDetail
                    pos := some { stripe := 0, record := 0, boundary := true, carried := { pass := 0, mark := 0 }
                                  below := false } } } } }
          tag flags .rewind .running).finish
      ∧ exec (.locate tag flags kind target) s = .next
          (if 1 < kind.toNat ∨ (kind.toNat = 0 ∧ 639999 < target.toNat) then
              s.takenDone tag flags (.locate kind.toNat target.toNat) .refusedArgument noDetail noDetail
            else if kind.toNat = 0 then
              (s.goStripe (job .locate) target.toNat).takenMotion tag flags (.locate kind.toNat target.toNat) .running
            else
              (s.goRecord { job .locate with byRecord := true } target.toNat none).takenMotion tag flags
                (.locate kind.toNat target.toNat) .running).finish
      ∧ exec (.locateEod tag flags) s = .next
          ((s.goEnd (job .locateEod)).takenMotion tag flags .locateEod .running).finish
      ∧ exec (.space tag flags kind count) s = .next
          (if 1 < kind.toNat ∨ 65535 < count.toInt.natAbs then
              s.takenDone tag flags (.space kind.toNat count.toInt) .refusedArgument noDetail noDetail
            else if count.toInt = 0 then
              s.takenDone tag flags (.space kind.toNat count.toInt) .ok (dv 4 0 ++ du 4) (dv 4 0 ++ du 4)
            else (s.goSpace (job .space) plan).takenMotion tag flags (.space kind.toNat count.toInt) .running).finish)

/-- R126 to R132: where a locate or space goes. By a valid directory, to its end of data at or above it, else to the header
search's start; without one, a scan from the carried position or the beginning of tape. A SPACE goes to the record that a complete
index gives it: by records past the first filemark of its span, or before the last; by filemarks past the n-th, or to the end of
data, or to record 0. Without one it searches the span's headers. What detail A holds of a LOCATE that goes to the directory's end
of data is the MODEL's choice (log entry 84), that LOCATE_EOD reckons the highest generation applied from 0 its choice (log entry
97), and that a forward search by filemarks under a VALID directory ends at its end of data its reading (log entry 78, DEDUCED). -/
def Obligations.LocatesGoWhereTheDirectorySays : Prop :=
  (∀ (s : State) (j : Job) (t : Nat),
    (∀ d, s.validDirectory = some d → d.eodStripe ≤ t →
      (s.goStripe j t).mc = { s.mc.shuttle d.endPos with job := some { j with
        stage := .toPlace, finish := some (endFinish d .locate (if t = d.eodStripe then .ok else .endOfData)) } })
    ∧ (∀ d, s.validDirectory = some d → t < d.eodStripe →
      ∃ x, (s.goStripe j t).mc = { s.mc.shuttle (d.stripeStart t) with job := some { j with stage := .toStart, search := some x } }
        ∧ x.goal = .stripe t ∧ x.scan = false ∧ x.start = d.stripeStart t ∧ x.attempt = 1 ∧ x.window = none)
    ∧ (s.validDirectory = none →
      ∃ x, (s.goStripe j t).mc = { s.mc.shuttle x.start with job := some { j with stage := .toStart, search := some x } }
        ∧ x.goal = .stripe t ∧ x.scan = true
        ∧ (∀ p, s.mc.dsPos = some p → p.stripe ≤ t → x.start = p.carried)
        ∧ (∀ p, s.mc.dsPos = some p → t < p.stripe → x.start = { pass := 0, mark := 0 }))
    ∧ (s.cml.condition = .absent →
      ∃ x, (s.goEnd j).mc = { s.mc.shuttle { pass := 0, mark := 0 } with
          job := some { j with stage := .toStart, search := some x } }
        ∧ x.goal = .endOfData ∧ x.scan = true ∧ x.highest = 0)
    ∧ (∀ d, s.cml.condition = .valid → s.cml.directory = some d →
      (s.goEnd j).mc = { s.mc.shuttle d.endPos with
        job := some { j with stage := .toPlace, finish := some (endFinish d .locateEod .ok) } })
    ∧ ∀ d, s.cml.condition = .stale → s.cml.directory = some d →
      ∃ x, (s.goEnd j).mc = { s.mc.shuttle (d.stripeStart d.eodStripe) with
          job := some { j with stage := .toStart, search := some x } }
        ∧ x.goal = .stale ∧ x.expected = d.eodStripe ∧ x.floor = some d.generation ∧ x.rebuilt = false ∧ x.highest = 0)
  ∧ (∀ (s : State) (j : Job) (r : Nat) (f : Option Finish),
    (∀ d, s.validDirectory = some d → d.eodRecord ≤ r →
      (s.goRecord j r f).mc = { s.mc.shuttle d.endPos with job := some { j with
        stage := .toPlace
        finish := some (match f with
          | some k => { k with pos := some d.endDs }
          | none => endFinish d j.kind (if r = d.eodRecord then .ok else .endOfData)) } })
    ∧ (∀ d, s.validDirectory = some d → r < d.eodRecord →
      ∃ x, (s.goRecord j r f).mc = { s.mc.shuttle (d.recordStart r) with
          job := some { j with stage := .toStart, finish := f, search := some x } }
        ∧ x.goal = .record r ∧ x.scan = false ∧ x.start = d.recordStart r ∧ x.attempt = 1 ∧ x.window = none)
    ∧ (s.validDirectory = none →
      ∃ x, (s.goRecord j r f).mc = { s.mc.shuttle x.start with
          job := some { j with stage := .toStart, finish := f, search := some x } }
        ∧ x.goal = .record r ∧ x.scan = true ∧ x.attempt = 1 ∧ x.window = none
        ∧ (∀ p, s.mc.dsPos = some p → p.record ≤ r → x.start = p.carried)
        ∧ (∀ p, s.mc.dsPos = some p → r < p.record → x.start = { pass := 0, mark := 0 })))
  ∧ ∀ (s : State) (j : Job) (plan : SpacePlan),
    let o := plan.origin
    let n := plan.count.natAbs
    let k : Job := { j with space := some plan }
    let ends (r : Result) (moved : Int) : Finish :=
      { result := r, detailA := dv 4 (int32 moved) ++ du 4, detailB := dv 4 (n - moved.natAbs) ++ du 4, pos := none }
    let searches (low : Nat) (high : Option Nat) (wanted : Nat) (start : TapePos) : Prop :=
      ∃ x, (s.goSpace j plan).mc = { s.mc.shuttle start with job := some { k with stage := .toStart, search := some x } }
        ∧ x.goal = .marks low high wanted ∧ x.scan = s.validDirectory.isNone ∧ x.start = start ∧ x.found = []
        ∧ x.attempt = 1 ∧ x.window = none
    let marks (d : Directory) (low high : Nat) : List Nat := (d.index.map (·.1)).filter fun f => low ≤ f ∧ f < high
    (plan.filemarks = false → 0 < plan.count →
      (∀ d, s.validDirectory = some d → d.complete = true →
        (∀ f rest, marks d o (min (o + n) d.eodRecord) = f :: rest →
          s.goSpace j plan = s.goRecord k (f + 1) (some (ends .filemark ((f : Int) + 1 - o))))
        ∧ (marks d o (min (o + n) d.eodRecord) = [] →
          s.goSpace j plan = if d.eodRecord < o + n then
              s.goRecord k d.eodRecord (some (ends .endOfData ((d.eodRecord : Int) - o)))
            else s.goRecord k (o + n) (some (ends .ok n))))
      ∧ (∀ d, s.validDirectory = some d → d.complete = false →
        searches o (some (min (o + n) d.eodRecord)) 1 (d.recordStart o))
      ∧ (s.validDirectory = none → ∀ p, s.mc.dsPos = some p → p.record = o → searches o (some (o + n)) 1 p.carried))
    ∧ (plan.filemarks = false → plan.count < 0 →
      (∀ d, s.validDirectory = some d → d.complete = true →
        (∀ f, (marks d (o - n) o).getLast? = some f →
          s.goSpace j plan = s.goRecord k f (some (ends .filemark ((f : Int) - o))))
        ∧ (marks d (o - n) o = [] →
          s.goSpace j plan = s.goRecord k (o - n) (some (ends .ok (((o - n : Nat) : Int) - o)))))
      ∧ (∀ d, s.validDirectory = some d → d.complete = false → searches (o - n) (some o) 0 (d.recordStart (o - n)))
      ∧ (s.validDirectory = none → ∀ p, s.mc.dsPos = some p →
        searches (o - n) (some o) 0 (if p.record ≤ o - n then p.carried else { pass := 0, mark := 0 })))
    ∧ (plan.filemarks = true → 0 < plan.count →
      (∀ d, s.validDirectory = some d → d.complete = true →
        let after := (d.index.map (·.1)).filter fun f => o ≤ f
        (∀ f, after[n - 1]? = some f → s.goSpace j plan = s.goRecord k (f + 1) (some (ends .ok n)))
        ∧ (after.length < n →
          (s.goSpace j plan).mc = { s.mc.shuttle d.endPos with job := some { k with
            stage := .toPlace, finish := some { ends .endOfData after.length with pos := some d.endDs } } }))
      ∧ (∀ d p, s.validDirectory = some d → d.complete = false → o < d.eodRecord → s.mc.dsPos = some p →
        searches o (some d.eodRecord) n p.carried)
      ∧ (s.validDirectory = none → ∀ p, s.mc.dsPos = some p → searches o none n p.carried))
    ∧ (plan.filemarks = true → plan.count < 0 →
      (∀ d, s.validDirectory = some d → d.complete = true →
        let before := (d.index.map (·.1)).filter fun f => f < o
        (∀ f, before.reverse[n - 1]? = some f → s.goSpace j plan = s.goRecord k f (some (ends .ok (-(n : Int)))))
        ∧ (before.length < n → s.goSpace j plan = s.goRecord k 0 (some (ends .ok (-(before.length : Int))))))
      ∧ (∀ d, s.validDirectory = some d → d.complete = false →
        (∀ f t, (d.index.filter fun e => e.1 < o).getLast? = some (f, t) →
          searches (f + 1) (some o) 0 (d.stripeStart t))
        ∧ ((d.index.filter fun e => e.1 < o) = [] → searches 0 (some o) 0 { pass := 0, mark := 0 }))
      ∧ (s.validDirectory = none → searches 0 (some o) 0 { pass := 0, mark := 0 }))

/-! ### The cartridge memory link (R135, R136) -/

/-- R135, R136: a no-acknowledge is repeated 5 ms later, three times at most; a page whose stop condition was sent is programmed;
an acknowledged transaction gives its bytes or programs its page and the operation goes on; the wait's end sends the same
transaction again. R139: the first block of a load read forms the identity and counters; a usable header of kind DATA sends the
reads of the pass table and the index, kind CLEANING, another kind or an unusable header ends the read with no directory, and the
last block ends it with the directory, VALID or STALE by its flag; LOAD goes on. R63, R64: the invalidation write ends with the
re-check, and opens the session or completes OPEN_WRITE. R140, R168: the counter write ends with a use spent. R147: the save ends
by the condition, and the UNLOAD that waits for it goes on to its rewind; where a fault has ended that UNLOAD meanwhile, no later
command is moved on (R119). The recorded flag UNKNOWN where a first block ends the read is the MODEL's choice (log entry 72), and
so is that a save whose UNLOAD a motion fault has ended runs on to its end (log entry 123). -/
def Obligations.LinkTransactions : Prop :=
  ∀ (s : State) (op : LinkOp), s.cml.op = some op →
    (∀ (t : Transaction) (rest : List Transaction), op.wait = none → op.steps = t :: rest →
      let again : Option LinkOp := some { op with retries := op.retries + 1, wait := some 2000 }
      (op.retries < 3 →
        exec (.i2cTransactionDone .noAck) s = .next (State.finish { s with cml := { s.cml with op := again } }))
      ∧ (∀ k, op.retries < 3 → t = .write k →
        exec (.i2cTransactionDone .noAckAfterStop) s = .next (State.finish
          { s with cml := { s.cml with op := again }
                   cartridge := Memory.writeBytes s.cartridge (64 * k) (s.pageBytes op.kind k) }))
      ∧ (3 ≤ op.retries → exec (.i2cTransactionDone .noAck) s = .next (s.linkFailed op t).finish)
      ∧ (∀ a n, t = .read a n → op.got ≠ [] → rest ≠ [] →
        exec (.i2cTransactionDone .ack) s = .next (State.finish
          { s with cml := { s.cml with
              op := some { op with steps := rest, retries := 0, got := op.got ++ Memory.readBytes s.cartridge a n } } }))
      ∧ (∀ k, t = .write k → op.kind ≠ .loadRead → rest ≠ [] →
        exec (.i2cTransactionDone .ack) s = .next (State.finish
          { s with cml := { s.cml with op := some { op with steps := rest, retries := 0 } }
                   cartridge := Memory.writeBytes s.cartridge (64 * k) (s.pageBytes op.kind k) }))
      ∧ (t = .read 0 192 → op.kind = .loadRead → op.got = [] →
        let b := Memory.readBytes s.cartridge 0 192
        let header := (b.drop 128).take 64
        let formed : Cml := { s.cml with
          identity := some { kind := fieldAt b 0 1, echo := fieldAt b 1 1, input := s.pins.writeProtect
                             serial := (b.drop 2).take 32 }
          counters := some { loads := fieldAt b 64 4, uses := fieldAt b 68 2 }
          dirty := { Dirty.clean with identity := fieldAt b 1 1 != (if s.pins.writeProtect then 1 else 0) } }
        let none_ (kind : CartKind) : Cml :=
          { formed with condition := .absent, directory := none, kind := kind, recorded := .unknown, op := none }
        exec (.i2cTransactionDone .ack) s = .next (State.finish
          (if fieldAt b 0 1 = 2 then State.afterLoadRead { s with cml := none_ .cleaning }
           else if fieldAt b 0 1 = 1 ∧ headerUsable header = true then
             { s with cml := { formed with
                 op := some { op with steps := directoryBlocks (fieldAt header 12 2), retries := 0, got := b } } }
           else State.afterLoadRead { s with cml := none_ .data })))
      ∧ (∀ a n, t = .read a n → op.kind = .loadRead → op.got ≠ [] → rest = [] →
        let b := op.got ++ Memory.readBytes s.cartridge a n
        exec (.i2cTransactionDone .ack) s = .next (State.finish (State.afterLoadRead
          { s with cml := { s.cml with
              condition := if fieldAt b 128 1 = 1 then .valid else .stale
              recorded := if fieldAt b 128 1 = 1 then .valid else .notValid
              kind := .data, op := none
              directory := some (directoryOf ((b.drop 128).take 64) ((b.drop 192).take 13312) (b.drop 13504)) } })))
      ∧ (∀ k, t = .write k → rest = [] →
        let e (c : Cml) : State :=
          { s with cml := { c with op := none }, cartridge := Memory.writeBytes s.cartridge (64 * k) (s.pageBytes op.kind k) }
        (∀ id, op.kind = .invalidate id →
          let u := e { s.cml with recorded := .notValid }
          exec (.i2cTransactionDone .ack) s = .next (State.finish
            (if op.aborted = true ∨ s.saveWaits = true then u.completeBare id .aborted
             else match u.openWriteCheck with
               | some r => u.completeBare id r
               | none => u.openSession id)))
        ∧ (op.kind = .counters →
          exec (.i2cTransactionDone .ack) s = .next (State.finish
            ((e { s.cml with counters := s.cml.counters.map fun c =>
                { loads := min 4294967295 (c.loads + 1), uses := c.uses - 1 } }).beginThreading .cleaning)))
        ∧ (op.kind = .save → (∀ j, s.mc.job = some j → j.kind ≠ .unload ∨ j.stage ≠ .saving) →
          exec (.i2cTransactionDone .ack) s = .next (State.finish
            (match s.cml.condition with
              | .valid => e { s.cml with dirty := Dirty.clean, recorded := .valid }
              | .stale => e { s.cml with dirty := { s.cml.dirty with identity := false, counters := false }, recorded := .notValid }
              | .absent => e { s.cml with recorded := .unknown })))
        ∧ ∀ j, op.kind = .save → s.mc.job = some j → j.kind = .unload → j.stage = .saving →
          exec (.i2cTransactionDone .ack) s = .next (State.finish
            (match s.cml.condition with
              | .valid => (e { s.cml with dirty := Dirty.clean, recorded := .valid }).setJob
                  { j with stage := .rewinding, saveCode := 0 }
              | .stale =>
                (e { s.cml with dirty := { s.cml.dirty with identity := false, counters := false }, recorded := .notValid }).setJob
                  { j with stage := .rewinding, saveCode := 3 }
              | .absent => (e { s.cml with recorded := .unknown }).setJob { j with stage := .rewinding, saveCode := 2 }))))
    ∧ ∀ n, op.wait = some n →
      let e := s.elapse n
      exec .i2cRetryWaitExpiry s = .next (State.finish { e with cml := { e.cml with op := some { op with wait := none } } })

/-! ### Threading, tension and faults (R117 to R119, R122 to R124) -/

/-- R117: servo lock on a data cartridge gives READY at pass 0, mark 0 and completes LOAD; a first attempt that fails is repeated;
a second one leaves PRESENT with the leader home, or FAULT with tape in the path, and LOAD completes THREAD_FAILED. R168: servo
lock on a cleaning cartridge gives CLEANING and begins the run to mark 3,000 at level 0; R134: with no LOAD left, after a
controller reset, the cleaning cartridge is unthreaded instead. That the tension loop starts with each attempt is the MODEL's
choice (log entry 96), and so are the travel direction STOPPED while the leader is wound (log entry 115) and that servo lock sets
both runs of the mark timer to 0 (log entry 122). -/
def Obligations.ThreadingEnds : Prop :=
  (∀ (s : State) (t : Thread), s.mc.state = .threading → s.mc.thread = some t → s.mc.job = none → t.kind = .cleaning →
    exec .servoLock s = .next (State.finish
      { s with
        pins := { s.pins with tapeInPath := true }
        mc := { s.mc.halt .unthreading with
          pos := some { pass := 0, mark := 0 }, speedFaults := 0, tensionFaults := 0, offRun := 0, inRun := 0, thread := none
          targets := [], tensionUp := false, recovery := none, loopOn := true } }))
  ∧ ∀ (s : State) (t : Thread) (j : Job) (tape : Bool),
    s.mc.state = .threading → s.mc.thread = some t → s.mc.job = some j →
    let late := s.elapse t.timer
    let again (e : State) : State :=
      { e with mc := { s.mc with
          state := .threading, loopOn := true, torqueA := 1024, torqueB := 1024, tensionUpRun := 0, tensionUp := false, recovery := e.mc.recovery
          thread := some { attempt := 2, kind := t.kind, timer := 3200000 } } }
    let home (e : State) (why : Nat) : State :=
      State.complete
        { e with
          pins := { s.pins with tapeInPath := false }, hm := { s.hm with cleaning := .none }
          mc := { e.mc.halt .present with loopOn := false, tensionUp := false, thread := none, job := none, tensionUpRun := 0 } }
        j.id .threadFailed noDetail (dv 1 why ++ du 7)
    let out (e : State) (why : Nat) : State :=
      ({ e with pins := { s.pins with tapeInPath := true } } : State).enterFault 2 .threadFailed (dv 1 why ++ du 7)
    (t.kind = .data →
      let r := ({ s with
        mc := { s.mc.halt .ready with
          pos := some { pass := 0, mark := 0 }
          dsPos := some { stripe := 0, record := 0, boundary := true, carried := { pass := 0, mark := 0 }, below := false }
          speedFaults := 0, tensionFaults := 0, offRun := 0, inRun := 0, thread := none, job := none, targets := passTargets 0 }
        pins := { s.pins with tapeInPath := true } } : State).raiseLoads
      exec .servoLock s = .next
        (r.complete j.id .ok (dv 1 s.cml.condition.code ++ dv 1 (if s.pins.writeProtect then 1 else 0) ++ du 6)
          noDetail).finish)
    ∧ (t.kind = .cleaning →
      exec .servoLock s = .next (State.finish
        { s with
          pins := { s.pins with tapeInPath := true }
          hm := { s.hm with cleaning := .run }
          mc := { s.mc.halt .cleaning with
            pos := some { pass := 0, mark := 0 }, speedFaults := 0, tensionFaults := 0, offRun := 0, inRun := 0, thread := none
            job := some { j with stage := .cleanRun }, travel := .forward, speed := 20
            targets := [{ mark := 60000, purpose := .passEnd }, { mark := 3000, purpose := .locateStop }] } }))
    ∧ (t.attempt = 1 →
      exec (.leaderNotCaptured tape) s = .next (again s).finish ∧ exec (.threadTimeout tape) s = .next (again late).finish)
    ∧ (t.attempt ≠ 1 → tape = false →
      exec (.leaderNotCaptured tape) s = .next (home s 0).finish ∧ exec (.threadTimeout tape) s = .next (home late 1).finish)
    ∧ (t.attempt ≠ 1 → tape = true →
      exec (.leaderNotCaptured tape) s = .next (out s 0).finish ∧ exec (.threadTimeout tape) s = .next (out late 1).finish)

/-- R117, R119, R122, R123, R124: tension counts as up after its run of 16, while a LOAD threads as in any other movement, and
sends a slow recovery on to wind the tape; while the tape unthreads it is judged no more; 40 samples out of band, or a second
speed fault, enter FAULT, and in a slow recovery 40 such samples end it, with the MOTION_FAULT note; the first speed fault of a
move stops the tape to go on from there, and that of a reading tape makes it reposition to its read point and ask for a start, a
reception in flight abandoned. R68, R72, R87, R114: the first one while writing ends the transfer in flight, its stripe SEALED
again, makes the report that is due count as missing, the stripe in transfer still in flight, and repositions to the write point;
that a stripe only ARMED goes back before the report counts as missing is the MODEL's choice (log entry 90). How many marks a
reposition's deceleration passes is a free value (log entry 27). The MODEL's choice (log entry 38): the tension fault that ends a
slow recovery posts its MOTION_FAULT note also where the state goes back to STRANDED. That the first speed fault sets both runs of
the mark timer to 0 is the MODEL's choice (log entry 122), and so is that the completion joins the pending list before the note
(log entry 125). -/
def Obligations.TensionAndSpeedFaults : Prop :=
  ∀ s : State,
    (s.mc.loopOn = true → s.mc.tensionUp = false → 16 ≤ s.mc.tensionUpRun → s.mc.state ≠ .unthreading →
      (∀ j, s.mc.job = some j → j.stage ≠ .recoverTension) →
      exec .tensionUp s = .next (State.finish { s with mc := { s.mc with tensionUp := true, tensionFaults := 0 } }))
    ∧ (∀ j, s.mc.loopOn = true → s.mc.tensionUp = false → 16 ≤ s.mc.tensionUpRun → s.mc.state ≠ .unthreading →
      s.mc.job = some j → j.stage = .recoverTension →
      exec .tensionUp s = .next (State.finish
        { s with mc := { s.mc with tensionUp := true, tensionFaults := 0, job := some { j with stage := .recoverWind }
                                   recovery := none, travel := .reverse, speed := 20 } }))
    ∧ (s.mc.loopOn = true → s.mc.tensionUp = true → 40 ≤ s.mc.tensionFaults →
      (∀ j, s.mc.job = some j → j.stage ≠ .recoverTension ∧ j.stage ≠ .recoverWind) →
      exec .tensionFault s = .next (s.enterFault 0 .motionFault noDetail).finish)
    ∧ (s.mc.state = .unthreading → exec .tensionUp s = .next s)
    ∧ (∀ j, s.mc.loopOn = true → s.mc.tensionUp = true → 40 ≤ s.mc.tensionFaults → s.mc.job = some j →
      j.stage = .recoverTension ∨ j.stage = .recoverWind →
      exec .tensionFault s = .next
        ((State.completeBare { s with mc := { s.mc.brake with state := if j.stranded then .stranded else .fault } } j.id
          .motionFault).faultNote 0).finish)
    ∧ (s.mc.judging = true → 16 ≤ s.mc.offRun → s.mc.speedFaults ≠ 0 →
      exec .speedFault s = .next (s.enterFault 1 .motionFault noDetail).finish)
    ∧ (s.mc.judging = true → 16 ≤ s.mc.offRun → s.mc.speedFaults = 0 → s.mc.state ≠ .streaming →
      exec .speedFault s = .next (State.finish
        { s with mc := { s.mc with speedFaults := 1, offRun := 0, inRun := 0, slowing := true, atSpeed := false, runIn := false
                                   resume := true, decel := none } }))
    ∧ (s.mc.judging = true → 16 ≤ s.mc.offRun → s.mc.speedFaults = 0 → s.mc.state = .streaming →
      let e : State := { s with mc := { s.mc with speedFaults := 1, offRun := 0, inRun := 0 } }
      let asks : Rg := { s.rg with stopKind := .none, readStart := .asked, held := none, newRun := true }
      let back : Mc := e.mc.reposition (Config.stopMarks s.free)
      let stops (u : State) : State :=
        { u with free := u.free + 1, tte := { u.tte with runOn := none, underrun := false }
                 mc := u.mc.reposition (Config.stopMarks u.free) }
      (∀ r, s.tte.read = some r → r.reception = none →
        exec .speedFault s = .next (State.finish
          { s with free := s.free + 1, tte := { s.tte with read := some { r with asked := false } }, mc := back, rg := asks }))
      ∧ (∀ r x, s.tte.read = some r → r.reception = some x →
        exec .speedFault s = .next (State.finish
          { s with
            free := s.free + 1
            spm := { s.spm with slots := s.spm.slots.modify x.slot fun _ => Slot.empty }
            tte := { s.tte with
              fifo := [], read := some { r with reception := none, asked := false, point := some x.pos } }
            mc := back, rg := asks }))
      ∧ (s.tte.read = none → s.tte.inFlight = none → s.tte.verify = none →
        exec .speedFault s = .next (stops e).finish)
      ∧ (∀ f, s.tte.read = none → s.tte.inFlight = some f → s.tte.verify = none → (s.slotAt f.slot).state = .writing →
        let u : State :=
          { e with
            spm := { s.spm with slots := s.spm.slots.modify f.slot fun y => { y with state := .sealed } }
            tte := { s.tte with inFlight := none, fifo := [] } }
        e.returnInFlight = (if s.spm.clearing then u.dropSlot f.slot else u)
          ∧ exec .speedFault s = .next (stops e.returnInFlight).finish)
      ∧ ∀ v, s.tte.read = none → s.tte.verify = some v →
        (s.tte.inFlight = none → exec .speedFault s = .next (stops (e.judgeFailed v.slot none)).finish)
        ∧ ∀ f, s.tte.inFlight = some f →
          exec .speedFault s = .next
            (stops (if f.transfer then (e.judgeFailed v.slot none).returnInFlight
              else e.returnInFlight.judgeFailed v.slot none)).finish)

/-- R124: entry into FAULT brakes the tape where it stands, stops the tension loop, ends the motion command and the writing
and reading in flight. -/
def Obligations.FaultEntry : Prop :=
  ∀ (s : State) (cause : Nat) (r : Result) (b : Detail),
    let t := s.enterFault cause r b
    t.mc = { s.mc with
      state := .fault, travel := .stopped, slowing := false, resume := false, speed := 0, atSpeed := false, runIn := false
      lastMark := none, loopOn := false, tensionUp := false, thread := none, recovery := none, job := none, decel := none
      targets := s.mc.targets.filter fun k => k.purpose == .passEnd || k.purpose == .earlyWarning }
    ∧ t.tte.inFlight = none ∧ t.tte.verify = none ∧ t.tte.runOn = none ∧ t.tte.read.bind (·.reception) = none
    ∧ t.rg.readStart = .threshold ∧ t.rg.stopKind = .none

/-- R118, R119, R168: the leader home ends UNLOAD, or a cleaning run with the index at 0; the wind of a slow recovery goes on to
unthreading; a recovery whose tension does not come up in time goes back to FAULT or STRANDED. That it posts no MOTION_FAULT
note there is the MODEL's choice (log entry 38), and so are that the tension loop runs until the leader is home (log entry 96) and
that the travel direction is STOPPED meanwhile (log entry 115). -/
def Obligations.UnthreadingEnds : Prop :=
  ∀ s : State,
    let e : State := { s with
      mc := { s.mc.halt .present with
        loopOn := false, tensionUp := false, tensionUpRun := 0, pos := none, dsPos := none, targets := [], job := none }
      pins := { s.pins with tapeInPath := false } }
    (∀ j, s.mc.state = .unthreading → s.mc.job = some j → j.kind ≠ .load →
      exec .unthreadDone s = .next
        (e.complete j.id .ok
          (if j.saveCode = 4 then dv 1 1 ++ dv 1 2 ++ du 6 else dv 1 0 ++ dv 1 j.saveCode ++ du 6) noDetail).finish)
    ∧ (∀ j, s.mc.state = .unthreading → s.mc.job = some j → j.kind = .load →
      exec .unthreadDone s = .next
        ((State.enterHealth { e with hm := { s.hm with ci := 0, wear := 0, waiting := 0, cleaning := .none } } .good 0).complete
          j.id .cleaned (dv 2 ((s.cml.counters.map (·.uses)).getD 0) ++ dv 2 j.ciBefore ++ du 4) noDetail).finish)
    ∧ (∀ j, s.mc.job = some j → j.stage = .recoverWind →
      exec .leaderHome s = .next (State.finish
        { s with mc := { s.mc.halt .unthreading with targets := [], tensionUp := false, recovery := none, loopOn := true
                                                     job := some { j with stage := .unthreading } } }))
    ∧ ∀ j n, s.mc.job = some j → j.stage = .recoverTension → s.mc.recovery = some n →
      let l := s.elapse n
      exec .recoveryTensionTimeout s = .next
        (State.completeBare { l with mc := { l.mc.brake with state := if j.stranded then .stranded else .fault } } j.id
          .motionFault).finish

/-! ### Marks, starts and stops (R110 to R114, R120, R121, R162) -/

/-- R67, R69, R72, R86, R110, R121, R122, R162: in every threaded state but THREADING and READY, whose tape winds a leader or
stands (log entries 115 and 116), a mark is timed, then counted in the travel direction within 0 to 60,000, the wear accumulator
and the run-on are moved by it, then the targets matched; a wrap of the accumulator raises the index by 1; a run-on that ends
makes a tape that ran into an underrun reposition, or stops it, after a report that is still due has been judged missing
(StripesAreJudged says how). The start mark's match begins the transfer of the armed stripe, or the reception whose slot is
READING, at the speed of its level. The MODEL's choices: a mark that would wrap the accumulator waits with it at 65,535 until
WEAR_STEP (log entry 12); the order of the matches (log entry 48); the count held at the ends of the usable length (log entry 50);
the marks of a reposition's deceleration, after which it runs back, are a free number (log entry 27). R86, R90, R112: a start mark
that finds no FREE slot makes the tape reposition, with the stop kind BACKPRESSURE where the window is CLOSED, and else for the
retry that is due or waits; one that a LOOPBACK holds back counts as such (the MODEL's choice, log entry 81). R65, R66, R69, R81,
R86, R121: the pass end turns the streaming tape and moves the write or read point to the next pass, the write point only where
the session still arms, but on pass 63 or where a run-on over the last position ends with the pass; in a header search it turns
the tape too. That the run-on of a stripe awaiting verify there has no mark left to count is the MODEL's reading (log entry 35,
DEDUCED), and so are that the end of pass 63 with the write queue empty sets UNDERRUN (log entry 93), but in a thermal pause (log
entry 119), and that nothing matches while the tape decelerates (log entry 103) its choices. The locate stop makes the tape
decelerate. -/
def Obligations.MarksAreCounted : Prop :=
  (∀ (s : State) (wait : Nat), s.mc.state.running = true → s.mc.travel ≠ .stopped ∨ s.mc.state = .unthreading →
    s.mc.runIn = false →
    let e := s.elapse wait
    let back : Bool := s.mc.state == .repositioning && s.mc.decel == some 0
    let travel := if back then (s.mc.pos.map fun p => (passTravel p.pass).turned).getD .stopped else s.mc.travel
    exec (.markEvent wait) s = .next (State.finish (State.matches_
      { e with
        mc := { e.mc.time e.now e.changing with
          travel := travel
          decel := if back then none else if s.mc.state = .repositioning then s.mc.decel.map (· - 1) else s.mc.decel
          pos := s.mc.pos.map fun p =>
            { p with mark := match travel with
                             | .forward => min 60000 (p.mark + 1)
                             | .reverse => p.mark - 1
                             | .stopped => p.mark } }
        hm := if s.hm.waiting = 0 ∧ s.hm.wear < 65535 then { s.hm with wear := s.hm.wear + 1 }
          else { s.hm with waiting := s.hm.waiting + 1 }
        tte := { s.tte with runOn := s.tte.runOn.map (· - 1) } })))
  ∧ (∀ g : MotionState, g.running = true ↔ g ≠ .empty ∧ g ≠ .present ∧ g ≠ .threading ∧ g ≠ .ready)
  ∧ (∀ (s : State) (n : Nat), s.hm.waiting = n + 1 →
    exec .wearStep s = .next
      (State.setIndex { s with hm := { s.hm with wear := n, waiting := 0 } } (s.hm.ci + 1) 1).finish)
  ∧ (∀ s : State, s.tte.runOn = some 0 → s.tte.verify = none →
    let t : Tte := { s.tte with runOn := none, underrun := false }
    exec .runOnEnd s = .next (State.finish
      (if s.mc.state ≠ .streaming then { s with tte := t }
       else if s.tte.underrun = true ∧ s.arming = true ∧ s.rg.flushed = false then
         { s with free := s.free + 1, tte := t, rg := { s.rg with stopKind := .underrun }
                  mc := s.mc.reposition (Config.stopMarks s.free) }
       else
         { s with tte := t, mc := { s.mc with slowing := true, atSpeed := false, runIn := false, decel := none } })))
  ∧ (∀ (s : State) (v : Verify), s.tte.runOn = some 0 → s.tte.verify = some v →
    let u := s.judgeFailed v.slot none
    let t : Tte := { u.tte with runOn := none, underrun := false }
    exec .runOnEnd s = .next (State.finish
      (if s.mc.state ≠ .streaming then { u with tte := t }
       else if s.tte.underrun = true ∧ u.arming = true ∧ u.rg.flushed = false then
         { u with free := u.free + 1, tte := t, rg := { u.rg with stopKind := .underrun }
                  mc := u.mc.reposition (Config.stopMarks u.free) }
       else
         { u with tte := t, mc := { u.mc with slowing := true, atSpeed := false, runIn := false, decel := none } })))
  ∧ (∀ s : State, s.mc.state = .streaming → s.mc.matched .startMark = true → s.mc.matched .passEnd = false →
    s.mc.matched .locateStop = false →
    let waits := s.mc.dropTarget .startMark
    let level := s.rg.held.getD s.rg.level
    (∀ f p, s.tte.read = none → s.tte.inFlight = some f → f.transfer = false → s.tte.writePoint = some p →
      s.matches_ =
        { s with
          tte := { s.tte with inFlight := some { f with transfer := true }, writePoint := some p.nextPosition }
          mc := { waits.loadStart p.nextPosition with speed := Config.levelSpeed level, atSpeed := true }
          rg := { s.rg with held := none } })
    ∧ (∀ r x, s.tte.read = some r → r.reception = some x → x.started = false →
      s.matches_ =
        { s with
          tte := { s.tte with
            read := some { r with reception := some { x with started := true }, point := some x.pos.nextPosition } }
          mc := { waits.loadStart x.pos.nextPosition with
            speed := Config.levelSpeed (if r.inRetry then 0 else level), atSpeed := true }
          rg := { s.rg with held := none } })
    ∧ ∀ r p, s.tte.read = some r → r.reception = none → r.point = some p → r.going = true →
      s.lowestFree = none ∨ s.tte.loopback ≠ none →
      let back (kind : StopKind) (due : Bool) : State :=
        { s with
          free := s.free + 1
          tte := { s.tte with read := some { r with asked := false, retryDue := due } }
          mc := waits.reposition (Config.stopMarks s.free)
          rg := { s.rg with stopKind := kind, readStart := .threshold, held := none } }
      s.matches_ =
        match r.window with
        | none => back .backpressure false
        | some w => back .none (!(r.inRetry && p == (w.origin.before 12).position)))
  ∧ (∀ (s : State) (q : TapePos), s.mc.state = .streaming → s.mc.pos = some q → s.mc.matched .passEnd = true →
    s.mc.matched .startMark = false → s.mc.matched .locateStop = false →
    let passes := s.mc.dropTarget .passEnd
    (∀ n, s.tte.read = none → s.tte.runOn = some n → s.matches_ = { s with mc := passes })
    ∧ (s.tte.read = none → s.tte.runOn = none → s.tte.inFlight = none → q.pass < 63 →
      let p := if s.arming then some q.nextPass else s.tte.writePoint
      s.matches_ =
        { s with
          mc := passes.turn
          tte := match s.tte.verify with
            | none => { s.tte with writePoint := p }
            | some v => { s.tte with writePoint := p, runOn := some 0, underrun := false
                                     verify := some { v with runOn := true } } })
    ∧ (s.tte.read = none → s.tte.runOn = none → s.tte.inFlight = none → 63 ≤ q.pass →
      s.matches_ =
        { s with
          mc := passes
          tte := { s.tte with
            runOn := some 0, underrun := s.arming && s.mc.thermal == .normal && s.spm.head.isNone
            verify := s.tte.verify.map fun v => { v with runOn := true } } })
    ∧ (∀ r, s.tte.read = some r → r.going = true → q.pass < 63 →
      s.matches_ =
        { s with
          mc := passes.turn, tte := { s.tte with read := some { r with point := some q.nextPass, asked := false } } })
    ∧ ∀ r, s.tte.read = some r → r.going = false → s.matches_ = { s with mc := passes })
  ∧ (∀ (s : State) (q : TapePos) (j : Job) (x : Search), s.mc.state = .moving → s.mc.pos = some q →
    s.mc.matched .passEnd = true → s.mc.matched .startMark = false → s.mc.matched .locateStop = false →
    s.mc.job = some j → j.stage = .searching → j.search = some x →
    (q.pass < 63 → s.matches_ = { s with mc := s.mc.turn })
    ∧ (63 ≤ q.pass →
      s.matches_ = State.searchAtMediaEnd { s with mc := s.mc.dropTarget .passEnd } j x))
  ∧ (∀ s : State, s.mc.slowing = true → s.matches_ = s)
  ∧ ∀ s : State, s.mc.matched .locateStop = true → s.mc.matched .startMark = false → s.mc.matched .passEnd = false →
    s.matches_ = { s with mc := { s.mc with slowing := true, atSpeed := false, runIn := false, decel := none } }

/-- R110 to R114: a start begins a new run, with a short last run after an underrun or backpressure lowering the level by one,
and brings the tape to its point at the level's speed; a retry that goes on begins none; the tape stands once repositioned. The
MODEL's choices: the start that follows a failure marker placed with the tape stopped begins a new run (log entry 82), when a
thermal pause within a retry does (log entry 83, by the field newRun), and from where the tape is brought to its point (log entry
20). -/
def Obligations.StartsAndRepositions : Prop :=
  (∀ (s : State) (p : TapePos), s.tte.writePoint = some p → s.arming = true → s.standsReady = true →
    s.startCondition s.emptyingWaits = true →
    exec .governorStart s = .next (State.finish
      { s with rg := s.rg.startRun, mc := s.mc.stream p (Config.levelSpeed s.rg.startRun.level) }))
  ∧ (∀ (s : State) (r : ReadState) (p : TapePos), s.tte.read = some r → r.point = some p → r.going = true →
    s.spm.direction = .readOpen → s.standsReady = true → s.mc.job = none → s.readStartHolds = true →
    let g := if r.inRetry = true ∧ s.rg.newRun = false then
        { s.rg with stopKind := .none, readStart := .threshold, held := none } else s.rg.startRun
    exec .readAheadResume s = .next (State.finish
      { s with rg := g, mc := s.mc.stream p (Config.levelSpeed (if r.inRetry then 0 else g.level)) }))
  ∧ (∀ g : Rg, g.startRun.runLength = some 0 ∧ g.startRun.stopKind = .none ∧ g.startRun.f = g.f
      ∧ ((g.stopKind ≠ .none ∧ 0 < g.level ∧ ∃ k, g.runLength = some k ∧ k < 32) →
          g.startRun.level = g.level - 1 ∧ g.startRun.target = none)
      ∧ (¬(g.stopKind ≠ .none ∧ 0 < g.level ∧ ∃ k, g.runLength = some k ∧ k < 32) →
          g.startRun.level = g.level ∧ g.startRun.target = g.target))
  ∧ ∀ s : State, s.mc.state = .repositioning →
    exec .repositionReady s = .next (State.finish
      { s with mc := { s.mc with state := .ready, travel := .stopped, slowing := false, resume := false, speed := 0
                                 atSpeed := false, runIn := false, lastMark := none, decel := none } })

/-- R81, R115, R120, R121, R125, R134: a turnaround steps the head to the next pass with the direction reversed, and writing,
reading or a header search goes on there; where the write side is failed or cleared, or no session is left, the tape stands in READY
there. A tape that has stopped streaming, or a reposition, stands in READY, and a move aborted or finished completes.
That the count stands at position 0 of the new pass, and that the next mark captured is its first, is the MODEL's choice (log
entry 20). -/
def Obligations.TurnsAndStops : Prop :=
  (∀ (s : State) (q : TapePos), s.mc.state = .turnaround → s.tte.runOn = none → s.mc.pos = some q →
    let onPass : Mc :=
      { s.mc with pos := some q.nextPass, travel := passTravel (q.pass + 1), runIn := true, targets := passTargets (q.pass + 1) }
    (∀ p, s.mc.job = none → s.tte.read = none → s.tte.writePoint = some p → s.arming = true → s.mc.thermal = .normal →
      exec .turnaroundDone s = .next (State.finish
        { s with
          mc := ({ onPass with
            state := .streaming, speed := Config.levelSpeed s.rg.level, atSpeed := false, lastMark := none } : Mc).loadStart p }))
    ∧ (s.mc.job = none → s.tte.read = none → s.arming = false →
      exec .turnaroundDone s = .next (State.finish { s with mc := onPass.halt .ready }))
    ∧ (∀ r p, s.mc.job = none → s.tte.read = some r → r.point = some p → r.going = true → s.mc.thermal = .normal →
      exec .turnaroundDone s = .next (State.finish
        { s with
          mc := ({ onPass with
            state := .streaming, atSpeed := false, lastMark := none
            speed := Config.levelSpeed (if r.inRetry then 0 else s.rg.held.getD s.rg.level) } : Mc).loadStart p }))
    ∧ ∀ j, s.mc.job = some j → j.stage = .searching →
      exec .turnaroundDone s = .next (State.finish
        { s with
          mc := { onPass with
            state := .moving, speed := Config.levelSpeed 0, atSpeed := false, lastMark := none, slowing := false
            resume := false } }))
  ∧ (∀ s : State, s.mc.slowing = true → s.mc.state = .streaming ∨ s.mc.state = .repositioning →
    exec .tapeStopped s = .next (State.finish { s with mc := s.mc.halt .ready }))
  ∧ ∀ (s : State) (j : Job) (f : Finish), s.mc.slowing = true → s.mc.state ≠ .streaming → s.mc.state ≠ .repositioning →
    s.mc.resume = false →
    s.mc.job = some j → j.stage = .finishing → j.finish = some f → s.spm.direction ≠ .readOpen →
    exec .tapeStopped s = .next
      (State.complete
        { s with mc := { s.mc.halt .ready with
            job := none, targets := s.mc.targets.filter fun k => k.purpose == .passEnd || k.purpose == .earlyWarning
            dsPos := match f.pos with | some p => some p | none => s.mc.dsPos } }
        j.id f.result f.detailA f.detailB).finish

/-! ### Sensors (R123, R133, R150 to R152) -/

/-- R150 to R152: a sequence takes its list, alternately where the plan says so, and the next stamp; a conversion gives the input
its latest value and joins the FILLING half, and one of an input other than the head temperature moves nothing of the motion state
but the torques and counts of a complete tension sample. R133: a conversion of the head temperature above 2,880 pauses a normal
thermal state, with its note, and holds streaming; one below 2,720 makes it normal again, with its note; any other leaves it. In a
read session the resume asks for a start of reading, and the run length begins again at 0 with it where the tape stands ready;
that it asks for one after a BACKPRESSURE stop too is the MODEL's choice (log entry 120), and so is that in a retry the count goes
on where the tape does not yet stand ready (log entry 83). While it is paused no stripe is armed, no position is read and no start
is made. R152 to R154: a result joins the FILLING half; the one that completes it makes the other half FILLING, reclaimed with its
ring write withdrawn and counted dropped where that still waits, and asks for its record's ring write, or at the full test drops
it with the count held at 255; the record written advances the tail, clears the count and empties its half, and holds the stamp,
half, counts and each result's input and value. -/
def Obligations.SequencesAndConversions : Prop :=
  (∀ s : State,
    let e := s.elapse s.ss.period
    let onB := s.ss.plan.alternate && s.ss.nextB
    exec .sequenceStart s = .next (State.finish
      { e with ss := { s.ss with
          period := s.ss.plan.period * 400, stamp := (s.ss.stamp + 1) % 4294967296
          nextB := s.ss.plan.alternate && !s.ss.nextB
          cursor := if onB then s.ss.cursor else s.ss.cursor.bind (nextScan s.ss.plan.scan)
          sequence := some
            { onB := onB, next := 0, stamp := s.ss.stamp
              entries := if onB then s.ss.plan.listB
                else match s.ss.cursor with | some c => s.ss.plan.listA.dropLast ++ [c] | none => s.ss.plan.listA } } }))
  ∧ (∀ (s : State) (q : Sequence) (raw : BitVec 12), s.ss.sequence = some q → q.entries.getD q.next 0 ≠ 8 →
    let input := q.entries.getD q.next 0
    let latest := s.ss.latest.set input (some (raw.toNat, q.stamp))
    let arm (i : Nat) : Nat := ((latest.getD i none).map (·.1)).getD 0
    exec (.conversionDone raw) s = .next (State.finish (State.addResult
      { s with
        ss := { s.ss with
          latest := latest
          sequence := if q.next + 1 < q.entries.length then some { q with next := q.next + 1 } else none }
        mc := if tensionPair q then s.mc.sample (arm 2) (arm 3) else s.mc }
      { input := input, raw := raw.toNat, onB := q.onB, entry := q.next, stamp := q.stamp })))
  ∧ (∀ (s : State) (q : Sequence) (raw : BitVec 12), s.ss.sequence = some q → q.entries.getD q.next 0 = 8 →
    tensionPair q = false →
    let e : State :=
      { s with
        ss := { s.ss with
          latest := s.ss.latest.set 8 (some (raw.toNat, q.stamp))
          sequence := if q.next + 1 < q.entries.length then some { q with next := q.next + 1 } else none } }
    let turned (x : Thermal) : State := { e with mc := { s.mc with thermal := x } }
    let taken (u : State) : Host.Outcome State Fault Refusal := .next (State.finish (u.addResult
      { input := 8, raw := raw.toNat, onB := q.onB, entry := q.next, stamp := q.stamp }))
    ((s.mc.thermal = .normal ∧ raw.toNat ≤ 2880) ∨ (s.mc.thermal = .paused ∧ 2720 ≤ raw.toNat) →
      exec (.conversionDone raw) s = taken e)
    ∧ (s.mc.thermal = .normal → 2880 < raw.toNat → s.tte.inFlight = none → s.spm.direction ≠ .readOpen →
      exec (.conversionDone raw) s
        = taken ((turned .paused).note .thermalPause (dv 2 raw.toNat ++ du 6) noDetail))
    ∧ (∀ r, s.mc.thermal = .normal → 2880 < raw.toNat → s.tte.inFlight = none → s.spm.direction = .readOpen →
      s.mc.state = .streaming → s.mc.slowing = false → s.tte.read = some r → r.reception = none → r.asked = false →
      let u := (turned .paused).note .thermalPause (dv 2 raw.toNat ++ du 6) noDetail
      exec (.conversionDone raw) s
        = taken { u with
            mc := { u.mc with slowing := true, atSpeed := false, runIn := false, decel := none }
            rg := { s.rg with stopKind := .none, readStart := .asked, held := none, newRun := true } })
    ∧ (s.mc.thermal = .paused → raw.toNat < 2720 → s.spm.direction ≠ .readOpen →
      exec (.conversionDone raw) s = taken ((turned .normal).note .thermalResume noDetail noDetail))
    ∧ (∀ r, s.mc.thermal = .paused → raw.toNat < 2720 → s.spm.direction = .readOpen → s.tte.read = some r →
      exec (.conversionDone raw) s
        = taken { (turned .normal).note .thermalResume noDetail noDetail with
            rg := { s.rg with
              readStart := if s.rg.readStart = .threshold then .asked else s.rg.readStart
              newRun := s.rg.newRun || (s.mc.state == .ready && r.eod.isNone) } }))
  ∧ (∀ (s : State) (r : SensorResult),
    let i := if s.ss.half0.phase = .filling then 0 else 1
    let results := (s.ss.half i).results ++ [r]
    let reclaim : Bool := (s.ss.half (1 - i)).phase == .awaitCopy
    let drops (n : Nat) : Nat := min 255 (n + 1)
    let count := if reclaim then drops s.ss.drops else s.ss.drops
    let ring := if reclaim then s.bpu.ring.filter fun q => match q with | .sensor h _ => h != 1 - i | _ => true else s.bpu.ring
    let turned (own : Half) : Ss := (s.ss.setHalf (1 - i) { phase := .filling, results := [] }).setHalf i own
    (results.length < s.ss.plan.batch →
      s.addResult r = { s with ss := s.ss.setHalf i { s.ss.half i with results := results } })
    ∧ (s.ss.plan.batch ≤ results.length → s.sensorFull = false →
      s.addResult r =
        { s with
          ss := { turned { phase := .awaitCopy, results := results } with drops := count }
          bpu := { s.bpu with ring := ring ++ [.sensor i (sensorRecord s.ss.plan i count results)] } })
    ∧ (s.ss.plan.batch ≤ results.length → s.sensorFull = true →
      s.addResult r =
        { s with
          ss := { turned { phase := .empty, results := [] } with drops := drops count }
          bpu := { s.bpu with ring := ring } }))
  ∧ (∀ s : State,
    let n := s.ringSlots .sensor 32
    (s.sensorFull = true ↔ n = 0 ∨ n ≤ s.ss.head ∨ (s.ss.tail + 1) % n = s.ss.head)
    ∧ ∀ (i : Nat) (bytes : List Byte), n ≠ 0 →
      s.writeSensor i bytes =
        { s with
          dram := Memory.writeBytes s.dram (s.ringAddr .sensor 32 s.ss.tail) bytes
          ss := { s.ss.setHalf i { phase := .empty, results := [] } with tail := (s.ss.tail + 1) % n, drops := 0 } })
  ∧ (∀ (plan : Plan) (half drops : Nat) (r : SensorResult) (rs : List SensorResult),
    (r :: rs).length ≤ 8 → half ≤ 1 → drops ≤ 255 → r.stamp < 4294967296 → r.entry ≤ 7 →
    let b := sensorRecord plan half drops (r :: rs)
    b.length = 32 ∧ fieldAt b 0 4 = r.stamp ∧ fieldAt b 4 1 = half ∧ fieldAt b 5 1 = (r :: rs).length
    ∧ fieldAt b 6 1 = r.entry + (if r.onB then 128 else 0) ∧ fieldAt b 7 1 = drops
    ∧ ∀ k x, (r :: rs)[k]? = some x → x.input ≤ 11 → x.raw ≤ 4095 →
        (if k % 2 = 0 then fieldAt b (8 + k / 2) 1 % 16 else fieldAt b (8 + k / 2) 1 / 16) = x.input
        ∧ fieldAt b (12 + 2 * k) 2
          = if plan.signed.contains x.input then (16 * x.raw + 32768) % 65536 else 16 * x.raw)
  ∧ ∀ s : State, s.mc.thermal = .paused →
    exec .armStripe s = .next s ∧ exec .readPositionStart s = .next s ∧ exec .governorStart s = .next s
    ∧ exec .readAheadResume s = .next s

/-- R123: a torque command changes by 96 parts in 256 of the distance from the target tension of 2,048, truncated, by at most 64
a sample, towards the target, and stays within 0 to 4,095. So it always moves where the tension is off by 3 or more and no bound
stops it. -/
def Obligations.TorqueMovesTowardsTarget : Prop :=
  ∀ torque measured : Nat, torque ≤ 4095 → measured ≤ 4095 →
    let change := min 64 ((if measured ≤ 2048 then 2048 - measured else measured - 2048) * 96 / 256)
    nextTorque torque measured ≤ 4095
    ∧ (measured ≤ 2048 → nextTorque torque measured = min 4095 (torque + change))
    ∧ (2048 ≤ measured → nextTorque torque measured = torque - change)
    ∧ (measured + 3 ≤ 2048 → torque < 4095 → torque < nextTorque torque measured)
    ∧ (2048 + 3 ≤ measured → 0 < torque → nextTorque torque measured < torque)

/-! ### Sessions and data commands (R33, R38, R39, R62 to R64, R78, R84, R94, R186) -/

/-- R62 to R64, R84, R85: OPEN_WRITE and OPEN_READ complete with the first condition that fails; else OPEN_WRITE sends the
invalidation write, or opens the session at the position where the directory on tape is not valid already, and OPEN_READ forms
the read state and begins read-ahead. That the end of data is a boundary also where delivery has brought the position there is the
MODEL's choice (log entry 92, in openWriteCheck); that the mark of the index as a whole marks no index page is its reading of R64
beside R142 (log entry 55, DEDUCED). -/
def Obligations.SessionsOpen : Prop :=
  ∀ (s : State) (tag : BitVec 16) (flags : BitVec 8), s.Takes flags → s.ci.dataQueue = [] → s.pe.intake = [] →
    (∀ r, s.openWriteCheck = some r →
      exec (.openWrite tag flags) s = .next (s.takenDone tag flags .openWrite r noDetail noDetail).finish)
    ∧ (s.openWriteCheck = none → s.cml.recorded ≠ .notValid → s.cml.op = none →
      exec (.openWrite tag flags) s = .next
        (State.takenData
          { s with cml := { s.cml with
              op := some { kind := .invalidate s.ci.nextId, steps := [.write 2], retries := 0, wait := none, got := []
                           aborted := false } } } tag flags .openWrite .running).finish)
    ∧ (∀ p d, s.openWriteCheck = none → s.cml.recorded = .notValid → s.mc.dsPos = some p → s.cml.directory = some d →
      let w := if p.stripe = d.eodStripe then d.endPos else p.carried
      exec (.openWrite tag flags) s = .next
        (State.takenDone
          { s with
            cml := (s.truncateDirectory p.stripe p.record w).cml
            tte := { s.tte with
              writePoint := some w, cause := none, inFlight := none, verify := none, runOn := none, underrun := false }
            spm := { s.spm with direction := .writeOpen, clearing := false, dropFrom := none }
            pe := { s.pe with cursor := 0, nextRecord := p.record }, rg := { s.rg with f := 0, sampleTime := some s.ms } }
          tag flags .openWrite .ok (dv 4 p.stripe ++ dv 2 (d.generation + 1) ++ du 2)
          (dv 4 p.record ++ dv 1 w.pass ++ dv 2 w.mark ++ du 1)).finish
      ∧ (let k := (s.truncateDirectory p.stripe p.record w).cml.dirty
        k.header = true ∧ k.wholeIndex = true ∧ k.index = s.cml.dirty.index))
    ∧ (∀ r, s.openReadCheck = some r →
      exec (.openRead tag flags) s = .next (s.takenDone tag flags .openRead r noDetail noDetail).finish)
    ∧ (∀ p, s.openReadCheck = none → s.mc.dsPos = some p →
      let end_ := match s.validDirectory with | some d => d.eodStripe | none => 4294967295
      let e : State := ({ s with spm := { s.spm with direction := .readOpen } } : State).formRead p
      exec (.openRead tag flags) s = .next
        (State.beginRead (State.takenDone
          { e with ue := Ue.reset, rg := { s.rg with f := 0, sampleTime := some s.ms } } tag flags .openRead .ok
          (dv 4 p.stripe ++ dv 1 p.carried.pass ++ dv 2 p.carried.mark ++ du 1)
          (dv 4 end_ ++ dv 1 s.cml.condition.code ++ du 3))).finish)

/-- R38, R39, R75, R94, R185: outside WRITE_OPEN a STREAM_RECORD or WRITE_MARK completes with the direction's result; in it,
with arguments out of range, REFUSED_ARGUMENT; else it is taken into the intake order under the next record numbers.
DELIVER_RECORD needs READ_OPEN, and opens a delivery. -/
def Obligations.RecordsTakenAndDelivered : Prop :=
  ∀ (s : State) (tag : BitVec 16) (flags count sync : BitVec 8) (lengths : List (BitVec 32)) (length : BitVec 32),
    s.Takes flags → s.ci.dataQueue = [] →
    let ls := (lengths.map (·.toNat)).take count.toNat
    let stream := HostCmd.streamRecord count.toNat (lengths.map (·.toNat))
    let mark := HostCmd.writeMark count.toNat sync.toNat
    (∀ r, s.writeRefusal = some r →
      exec (.streamRecord tag flags count lengths) s = .next (s.takenDone tag flags stream r noDetail noDetail).finish
      ∧ exec (.writeMark tag flags count sync) s = .next (s.takenDone tag flags mark r noDetail noDetail).finish)
    ∧ (s.spm.direction = .writeOpen → s.intakeHeld = false →
      (count.toNat = 0 ∨ 6 < count.toNat ∨ (∃ l ∈ ls, 16777215 < l) →
        exec (.streamRecord tag flags count lengths) s
          = .next (s.takenDone tag flags stream .refusedArgument noDetail noDetail).finish)
      ∧ (1 ≤ count.toNat → count.toNat ≤ 6 → (∀ l ∈ ls, l ≤ 16777215) → s.pe.next = none →
        exec (.streamRecord tag flags count lengths) s = .next
          (State.takenOut { s with pe := s.pe.takeStream s.ci.nextId ls s.earlyWarning } tag flags stream .running).finish)
      ∧ exec (.writeMark tag flags count sync) s = .next
          (if count.toNat = 0 ∨ 1 < sync.toNat then s.takenDone tag flags mark .refusedArgument noDetail noDetail
           else State.takenOut { s with pe := s.pe.takeMark s.ci.nextId count.toNat (sync.toNat == 1) s.earlyWarning } tag
             flags mark .running).finish)
    ∧ (s.pe.intake = [] → s.spm.direction = .none ∨ s.spm.direction = .writeOpen →
      exec (.deliverRecord tag flags length) s
        = .next (s.takenDone tag flags (.deliverRecord length.toNat) .refusedState noDetail noDetail).finish)
    ∧ (s.pe.intake = [] → s.spm.direction = .readOpen →
      exec (.deliverRecord tag flags length) s = .next
        (if 16777215 < length.toNat then
            s.takenDone tag flags (.deliverRecord length.toNat) .refusedArgument noDetail noDetail
          else
            (State.takenData
              { s with ue := { s.ue with state := .opening, cmd := some s.ci.nextId, length := length.toNat, cursor := 0
                                         record := none, output := [], decoder := Decoder.empty } }
              tag flags (.deliverRecord length.toNat) .running).tryOpen).finish)

/-- R33, R35, R78, R79, R81, R102, R186: FLUSH needs a write session, completes at once where nothing is left to write, and else
seals the FILLING slot and waits; CLOSE completes OK with no session, leaves a session whose stripes are all kept, and is refused
otherwise; ABORT with nothing to stop completes at once, the Pack Engine emptied; in a write session it frees the FILLING and
SEALED slots and waits for the rest of the write side, whose emptying makes the direction NONE, and a FLUSH that holds the head
ends ABORTED with that emptying, its details the end of data then; a read session it leaves at once, every slot FREE. That an
ABORT with no delivery outstanding leaves the Unpack Engine as it stood is the MODEL's choice (log entry 67), and so are that one
ends a WRITE_MARK with sync at its dispatch (log entry 108, in abortPack), that a CLOSE leaves a motion command in progress
running (log entry 65), that one in WRITE_OPEN leaves the Pack Engine as it stands (log entry 52), that work taken while an ABORT
settles is discarded as the direction leaves (log entry 28, DEDUCED), that an ABORT's dispatch completes the data commands behind
such a FLUSH at once (log entry 107, in cutData) and that a FLUSH which finds nothing left to write marks the write side as
emptied under FLUSH, so that a run-on then ends without an underrun (log entry 69). The order in which one ABORT's completions
join the pending list, by block, is the MODEL's choice too (log entry 124, in abortPack and runAbort). -/
def Obligations.FlushCloseAbort : Prop :=
  ∀ (s : State) (tag : BitVec 16) (flags : BitVec 8), s.Takes flags →
    (s.ci.dataQueue = [] → s.pe.intake = [] → s.spm.direction = .none ∨ s.spm.direction = .readOpen →
      exec (.flush tag flags) s = .next (s.takenDone tag flags .flush .refusedState noDetail noDetail).finish)
    ∧ (s.ci.dataQueue = [] → s.pe.intake = [] → s.spm.direction = .writeOpen → s.spm.clearing = false →
        s.filling = none → s.spm.writeEmpty = true →
      exec (.flush tag flags) s = .next (State.finish
        { s.takenDone tag flags .flush (if s.earlyWarning then .okEarlyWarning else .ok) (dv 4 s.endOfData.1 ++ du 4)
            (dv 4 s.endOfData.2 ++ du 4) with
          rg := { s.rg with flushed := true } }))
    ∧ (∀ i, s.ci.dataQueue = [] → s.pe.intake = [] → s.spm.direction = .writeOpen → s.filling = some i →
        s.pe.entryOpen = false → (s.slotAt i).entries ≠ 0 →
      exec (.flush tag flags) s = .next (State.finish (State.takenData
        { s with
          pe := { s.pe with emit := .begin_ }
          spm := { s.spm with
            sealing := some { slot := i, writes := [(s.slotBase i, Header.sealed ((s.slotAt i).stripe.getD 0)
              ((s.cml.directory.map (·.generation)).getD 0) (s.slotAt i).entries ((s.slotAt i).firstRecord.getD 0)
              (s.slotAt i).dataBytes)] } } } tag flags .flush .running)))
    ∧ exec (.close tag flags) s = .next
        (match s.spm.direction with
          | .none => s.takenDone tag flags .close .ok noDetail noDetail
          | .writeOpen =>
            if s.spm.allFree then s.leaveWrite.takenDone tag flags .close .ok noDetail noDetail
            else s.takenDone tag flags .close .pendingWrite noDetail noDetail
          | .writeFailed => s.takenDone tag flags .close .refusedState noDetail noDetail
          | .readOpen =>
            if s.delivering then s.takenDone tag flags .close .refusedState noDetail noDetail
            else s.leaveRead.stopStreaming.takenDone tag flags .close .ok noDetail noDetail).finish
    ∧ (s.pe.intake = [] → s.spm.direction = .none → s.spm.clearing = false → s.mc.job = none → s.cml.op = none →
        s.mc.state ≠ .repositioning → s.ci.dataQueue = [] → s.ci.motionQueue = [] → s.ci.aborts = [] → s.ue.state = .idle ∨ s.ue.state = .done →
      exec (.abort tag flags) s = .next
        (State.takenDone { s with pe := s.pe.discard [] } tag flags .abort .ok noDetail noDetail).finish)
    ∧ (s.pe.intake = [] → s.spm.direction = .writeOpen → s.mc.job = none → s.cml.op = none → s.tte.inFlight = none →
        s.mc.state ≠ .repositioning → s.ci.dataQueue = [] → s.ci.motionQueue = [] →
        (∀ x ∈ s.spm.slots, x.state ≠ .verified) →
        let goes (x : Slot) : Bool := x.state == .filling || x.state == .sealed
      exec (.abort tag flags) s = .next (State.finish
        (({ s with
            pe := s.pe.discard [], rg := { s.rg with stopKind := .none }
            spm := { s.spm with
              slots := s.spm.slots.map fun x => if goes x then Slot.empty else x
              clearing := true, sealing := none, sealTimer := none
              dropFrom := minOpt s.spm.dropFrom ((lowestOf (s.spm.numbered goes)).map (·.1)) } } : State).takenOut tag flags
          .abort .running |>.onCi fun c => { c with aborts := c.aborts ++ [s.ci.nextId] })))
    ∧ (∀ f, s.pe.intake = [] → s.spm.direction = .writeOpen → s.mc.job = none → s.cml.op = none → s.tte.inFlight = none →
        s.mc.state ≠ .repositioning → s.ci.dataQueue = [f.id] → s.taken f.id = some f → f.cmd = .flush → f.stage = .running →
        s.ci.motionQueue = [] → (∀ x ∈ s.spm.slots, x.state ≠ .verified) → (∃ x ∈ s.spm.slots, x.state = .awaitVerify) →
        let goes (x : Slot) : Bool := x.state == .filling || x.state == .sealed
      exec (.abort tag flags) s = .next (State.finish
        (((({ s with
            pe := s.pe.discard [], rg := { s.rg with stopKind := .none }
            spm := { s.spm with
              slots := s.spm.slots.map fun x => if goes x then Slot.empty else x
              clearing := true, sealing := none, sealTimer := none
              dropFrom := minOpt s.spm.dropFrom ((lowestOf (s.spm.numbered goes)).map (·.1)) } } : State).takenOut tag flags
          .abort .running).onCi fun c => { c with aborts := c.aborts ++ [s.ci.nextId] }).setStage f.id .aborted)))
    ∧ (∀ f, s.pe.intake = [] → s.ci.dataQueue.head? = some f.id → s.taken f.id = some f → f.cmd = .flush →
        f.stage = .aborted → f.barrier = false → f.malformed = false →
      s.serveData =
        if s.spm.writeEmpty then
          some (s.complete f.id .aborted (dv 4 s.endOfData.1 ++ du 4) (dv 4 s.endOfData.2 ++ du 4))
        else none)
    ∧ (s.pe.intake = [] → s.spm.direction = .readOpen → s.mc.job = none → s.cml.op = none → s.mc.state = .ready →
        s.spm.clearing = false → s.ci.dataQueue = [] → s.ci.motionQueue = [] → s.ci.aborts = [] → s.ue.cmd = none →
        s.ue.state = .idle ∨ s.ue.state = .done →
      exec (.abort tag flags) s = .next
        ((State.leaveRead { s with pe := s.pe.discard [] }).takenDone tag flags .abort .ok noDetail noDetail).finish)
    ∧ (s.spm.clearing = true → s.spm.direction ≠ .readOpen → s.spm.writeEmpty = true → s.tte.inFlight = none →
        s.tte.verify = none →
      s.reactCleared = some s.abortPack.leaveWrite ∧ s.abortPack.leaveWrite.spm.direction = .none
        ∧ s.abortPack.leaveWrite.tte.writePoint = none)
    ∧ (s.leaveRead.spm.direction = .none ∧ s.leaveRead.tte.read = none
        ∧ (s.Inv → s.spm.direction = .readOpen → ∀ x ∈ s.leaveRead.spm.slots, x.state = .free))

/-! ### Coding and the FILLING stripe (R18, R21, R22, R24, R44 to R55, R59) -/

/-- R18, R21, R22, R24, R34, R55: the coder takes bytes that do not complete its chunk into it and its CRC; the lowest-indexed FREE
slot, but for one that a LOOPBACK sends, which a request passes over (the MODEL's choice, log entry 117), becomes FILLING under
the next stripe number with the waiting item's entry begun; the seal timer's end seals the FILLING stripe, or
frees it where it holds no entry; while its sealing writes are under way the timer runs on and its end does nothing more, and it
stops when they are done. That an item whose entry a sealing write has still to place leaves the intake order only with
that write is the MODEL's reading (log entry 40, DEDUCED): R40 has an item leave when its entry is placed. -/
def Obligations.CodingAndFilling : Prop :=
  (∀ (s : State) (n : Nat), s.pe.coder = .collecting → n ≤ s.pe.fifo.length → n < s.pe.chunkRoom →
    exec (.coderTakeBytes n) s = .next (State.finish
      { s with pe := { s.pe with
          fifo := s.pe.fifo.drop n, chunk := s.pe.chunk ++ s.pe.fifo.take n
          crc := crcBytes s.pe.crc (s.pe.fifo.take n), taken := s.pe.taken + n } }))
  ∧ (∀ (s : State) (n : Nat), s.pe.coder = .collecting → s.pe.chunkRoom ≤ n → s.pe.chunkRoom ≤ s.pe.fifo.length →
    0 < s.pe.chunkRoom →
    let k := s.pe.chunkRoom
    exec (.coderTakeBytes n) s = .next (State.finish
      { s with pe := Pe.codeFull { s.pe with
          fifo := s.pe.fifo.drop k, chunk := s.pe.chunk ++ s.pe.fifo.take k
          crc := crcBytes s.pe.crc (s.pe.fifo.take k), taken := s.pe.taken + k } }))
  ∧ (∀ (s : State) (i : Nat),
    s.lowestFree = some i ↔
      (s.spm.slots[i]?).map (·.state) = some .free ∧ s.tte.loopback.map (·.slot) ≠ some i
        ∧ ∀ k < i, (s.spm.slots[k]?).map (·.state) = some .free → s.tte.loopback.map (·.slot) = some k)
  ∧ (∀ (s : State) (i : Nat), s.pe.coder = .awaitSlot → s.spm.direction = .writeOpen → s.spm.clearing = false →
    s.spm.sealing = none → s.spm.firstIn .filling = none → s.lowestFree = some i →
    exec .fillingSlotTaken s = .next (State.finish
      { s with
        spm := { s.spm with
          slots := s.spm.slots.set i
            { state := .filling, stripe := some s.nextFilling.1, dataBytes := 0, entries := 1
              firstRecord := some s.nextFilling.2, copy := some 0, pos := none }
          sealTimer := if s.spm.sealInterval = 0 then none else some (s.spm.sealInterval * 400000) }
        pe := { s.pe with
          entryOpen := true, pieceFirst := !s.pe.anyPlaced, pieceCoded := 0, coder := .emitting
          emit := if s.pe.raw = 0 then .entry else .place } }))
  ∧ (∀ (s : State) (n i : Nat), s.spm.sealTimer = some n → s.filling = some i → s.pe.entryOpen = false →
    let e := s.elapse n
    ((s.slotAt i).entries = 0 →
      exec .sealTimerExpiry s = .next (State.finish
        { e with spm := { e.spm with slots := s.spm.slots.modify i fun _ => Slot.empty, sealTimer := none } }))
    ∧ ((s.slotAt i).entries ≠ 0 →
      exec .sealTimerExpiry s = .next (State.finish
        { e with
          pe := { s.pe with emit := .begin_ }
          spm := { e.spm with
            sealTimer := none
            sealing := some { slot := i, writes := [(s.slotBase i, Header.sealed ((s.slotAt i).stripe.getD 0)
              ((s.cml.directory.map (·.generation)).getD 0) (s.slotAt i).entries ((s.slotAt i).firstRecord.getD 0)
              (s.slotAt i).dataBytes)] } } })))
  ∧ (∀ (s : State) (n : Nat), s.spm.sealTimer = some n → s.spm.sealing.isSome = true →
    let e := s.elapse n
    exec .sealTimerExpiry s = .next (State.finish { e with spm := { e.spm with sealTimer := none } }))
  ∧ (∀ (s : State) (i : Nat), (s.sealDone i).spm.sealing = none ∧ (s.sealDone i).spm.sealTimer = none)
  ∧ ∀ s : State, s.pe.coder = .emitting → s.pe.entryOpen = false → s.pe.emit = .entry →
    (s.spm.entryWaits = true → s.reactEmit = none) ∧ (s.spm.entryWaits = false → s.reactEmit = some s.itemDone)

/-- R44 to R51, R59, R60: what the coder makes of a record of up to 256 bytes, the decoder turns into the same bytes, with the
same CRC register, whatever the compression setting. -/
def Obligations.ShortRecordsSurviveCoding : Prop :=
  ∀ (record : List Byte) (compress : Bool), 1 ≤ record.length → record.length ≤ 256 →
    let d : Decoding :=
      { decoder := { Decoder.empty with input := (codeChunk compress [] 0 [] record).output }, produced := 0, output := []
        crc := 0xFFFFFFFF }
    let r := (Decoding.run record.length compress false 1024 d).1
    r.output = record ∧ r.produced = record.length ∧ r.crc = crcBytes 0xFFFFFFFF record

/-- R6 to R11, R15: the fields of an entry and of a header as it is stamped are the fields read back, and the stamped header is
valid at its place. -/
def Obligations.HeadersAndEntriesReadBack : Prop :=
  (∀ e : Entry, e.index < 65536 → e.raw < 16777216 → e.coded < 16777216 → e.crc < 4294967296 →
    e.bytes.length = 16 ∧ Entry.ofBytes e.bytes = e ∧ entryZerosOk e.bytes = true)
  ∧ ∀ (stripe generation entries first dataBytes copy : Nat) (p : TapePos),
      stripe < 4294967296 → 1 ≤ generation → generation < 65536 → 1 ≤ entries → entries ≤ 4096 → first < 4294967296 →
      64 + dataBytes + 16 * entries ≤ 1048576 → copy ≤ 3 → p.pass < 256 → p.mark < 65536 →
      let h := stampHeader (Header.sealed stripe generation entries first dataBytes) p copy
      h.length = 64 ∧ headerValidAt true h p = true
      ∧ Header.ofBytes h =
          { stripe := stripe, generation := generation, pass := p.pass, copy := copy, mark := p.mark, entries := entries
            first := first, dataBytes := dataBytes }

/-! ### Writing to tape (R66 to R74, R80) -/

/-- R65 to R68, R70 to R72, R80: the head of the write queue is armed at the write point with its header stamped; at the end of a
pass the tape turns, at the end of media writing fails; a transfer that has sent a whole stripe awaits its report, one that
starves goes back to SEALED; a report of the stripe before it that is still due as either ends is judged missing first
(StripesAreJudged says how); a report at the stripe's start mark judges it. -/
def Obligations.StripesAreWrittenAndVerified : Prop :=
  (∀ (s : State) (p : TapePos) (i : Nat), s.tte.writePoint = some p → s.mayArm = true → p.startable = true →
    s.spm.head = some i → s.mc.ahead p = true → s.spm.firstIn .writing = none →
    exec .armStripe s = .next (State.finish (State.evaluate
      { s with
        spm := { s.spm with slots := s.spm.slots.modify i fun x => { x with state := .writing, pos := some p } }
        dram := Memory.writeBytes s.dram (s.slotBase i)
          (stampHeader (Memory.readBytes s.dram (s.slotBase i) 64) p ((s.slotAt i).copy.getD 0))
        tte := { s.tte with inFlight := some { slot := i, transfer := false, fetched := 0, sent := 0 }, fifo := [] }
        mc := s.mc.load p.mark .startMark, rg := { s.rg with flushed := false } })))
  ∧ (∀ (s : State) (p : TapePos), s.tte.writePoint = some p → s.mayArm = true → p.startable = false → p.pass < 63 →
    s.tte.verify = none →
    exec .armStripe s = .next (State.finish
      { s with mc := s.mc.turn, tte := { s.tte with writePoint := some p.nextPass } }))
  ∧ (∀ (s : State) (p : TapePos), s.tte.writePoint = some p → s.mayArm = true → p.startable = false → 63 ≤ p.pass →
    s.spm.head.isSome = true → exec .armStripe s = .next (s.enterWriteFailed .mediaEnd).finish)
  ∧ (∀ (s : State) (f : InFlight), s.tte.inFlight = some f → f.transfer = true → s.tte.verify = none →
    (s.slotAt f.slot).state = .writing →
    (1048576 ≤ f.sent → s.spm.firstIn .awaitVerify = none →
      exec .transferCountTermination s = .next (State.finish
        { s with
          spm := { s.spm with slots := s.spm.slots.modify f.slot fun x => { x with state := .awaitVerify } }
          tte := { s.tte with
            inFlight := none, fifo := []
            verify := some { slot := f.slot, mark := (((s.slotAt f.slot).pos).map (·.mark)).getD 0
                             runOn := s.tte.runOn.isSome } } }))
    ∧ (f.sent < 1048576 → s.tte.fifo = [] → s.spm.clearing = false →
      exec .channelStarvation s = .next (State.finish
        { s with
          spm := { s.spm with slots := s.spm.slots.modify f.slot fun x => { x with state := .sealed } }
          tte := { s.tte with inFlight := none, fifo := [] } })))
  ∧ (∀ (s : State) (f : InFlight) (v : Verify), s.tte.inFlight = some f → f.transfer = true → s.tte.verify = some v →
    let u := s.judgeFailed v.slot none
    let put (g : SlotState) : Spm := { u.spm with slots := u.spm.slots.modify f.slot fun x => { x with state := g } }
    (u.slotAt f.slot).state = .writing →
    (1048576 ≤ f.sent → u.spm.firstIn .awaitVerify = none →
      exec .transferCountTermination s = .next (State.finish
        { u with
          spm := put .awaitVerify
          tte := { u.tte with
            inFlight := none, fifo := []
            verify := some { slot := f.slot, mark := (((u.slotAt f.slot).pos).map (·.mark)).getD 0
                             runOn := s.tte.runOn.isSome } } }))
    ∧ (f.sent < 1048576 → s.tte.fifo = [] →
      let e : State := { u with spm := put .sealed, tte := { u.tte with inFlight := none, fifo := [] } }
      exec .channelStarvation s = .next (if s.spm.clearing then e.dropSlot f.slot else e).finish))
  ∧ ∀ (s : State) (v : Verify) (p : TapePos) (header : HeaderRead) (counts : Counts),
      s.tte.verify = some v → (s.slotAt v.slot).pos = some p →
      exec (.verifyReport v.mark header counts) s = .next
        (if headerValidAt header.valid header.bytes p = true ∧ counts.rows = 0 ∧ counts.maxCorrected ≤ s.hm.threshold then
            s.judgeGood v.slot counts
          else s.judgeFailed v.slot (some counts)).finish

/-- R26 to R28, R35, R72, R74, R76, R77, R143, R144, R165: a stripe judged failed goes back to SEALED with its copy number raised,
scored as needing a rewrite; with copy number 3 the session fails, WRITE_FAILED with its note and the index raised to 700 or
more, which asks for cleaning; under a clearing ABORT it is dropped. A stripe judged good becomes VERIFIED, and the VERIFIED
stripes at the bottom of the write side are freed in order: each grows the directory's end of data, its pass entry with an
absent waypoint of its segment and an end mark that moves only forward along the pass, and the filemark index, with the dirty
marks, and none is left. That a failure with copy number 3 in WRITE_FAILED or under ABORT posts no note and leaves the failure
cause as it is, is the MODEL's choice (log entry 79), and so are that a good outcome is scored before stripes are freed (log entry
76), that a failure with copy number 3 is scored before the direction changes (log entry 109) and where an entry that was empty has
its end mark grow from (log entry 98). -/
def Obligations.StripesAreJudged : Prop :=
  (∀ (s : State) (i : Nat) (x : Slot) (copy : Nat) (c : Option Counts),
    s.spm.slots[i]? = some x → x.state = .awaitVerify → x.copy = some copy → copy ≤ 3 →
    let e := State.score
      { s with
        spm := { s.spm with slots := s.spm.slots.set i { x with state := .sealed, copy := some (min 3 (copy + 1)) } }
        tte := { s.tte with verify := none } } true true c (x.stripe.getD 0)
    let raised := e.setIndex (max e.hm.ci 700) 2
    let p := x.pos.getD { pass := 0, mark := 0 }
    let failed := (e.enterWriteFailed .verify).note .writeFailed
      (dv 4 (x.stripe.getD 0) ++ dv 1 p.pass ++ du 3)
      (dv 2 p.mark ++ (match c with | some k => dv 2 k.rows ++ dv 1 k.maxCorrected | none => du 3)
        ++ dv 1 (if c.isSome then 0 else 1) ++ du 2)
    (copy < 3 → s.judgeFailed i c = if s.spm.clearing then e.dropSlot i else e)
    ∧ (copy = 3 → s.spm.clearing = true → s.judgeFailed i c = raised.dropSlot i)
    ∧ (copy = 3 → s.spm.clearing = false → s.spm.direction ≠ .writeOpen → s.judgeFailed i c = raised)
    ∧ (copy = 3 → s.spm.clearing = false → s.spm.direction = .writeOpen →
        s.judgeFailed i c = failed.setIndex (max failed.hm.ci 700) 2
        ∧ (s.judgeFailed i c).spm.direction = .writeFailed ∧ (s.judgeFailed i c).tte.cause = some .verify
        ∧ 700 ≤ (s.judgeFailed i c).hm.ci ∧ (s.judgeFailed i c).hm.health = .cleanRequired))
  ∧ (∀ (s : State) (i : Nat) (c : Counts), (s.slotAt i).state = .awaitVerify →
    s.judgeGood i c = State.freeRun (State.score
      { s with
        spm := { s.spm with slots := s.spm.slots.modify i fun x => { x with state := .verified } }
        tte := { s.tte with verify := none } } true false (some c) ((s.slotAt i).stripe.getD 0)))
  ∧ (∀ (s : State) (i t : Nat) (d : Directory),
    lowestOf (s.spm.numbered fun y => y.state.writeSide) = some (t, i) → (s.slotAt i).state = .verified →
    s.spm.clearing = false → s.cml.directory = some d →
    let x := s.slotAt i
    let done : StripeDone :=
      { stripe := t, pos := x.pos.getD { pass := 0, mark := 0 }, first := x.firstRecord.getD 0, flags := s.entryFlags i }
    let g := d.apply done
    let e : State :=
      { s with
        spm := { s.spm with slots := s.spm.slots.modify i fun _ => Slot.empty }
        cml := { s.cml with
          directory := some g
          dirty := { s.cml.dirty with
            header := true
            passes := if done.pos.pass ∈ s.cml.dirty.passes then s.cml.dirty.passes else s.cml.dirty.passes ++ [done.pos.pass]
            index := (grownPages d.index.length g.index.length).foldl markOnce s.cml.dirty.index } } }
    (∀ u j, lowestOf (e.spm.numbered fun y => y.state.writeSide) = some (u, j) → (e.slotAt j).state ≠ .verified) →
    s.freeRun = e)
  ∧ (∀ (s : State) (t i : Nat),
    lowestOf (s.freeRun.spm.numbered fun y => y.state.writeSide) = some (t, i) → (s.freeRun.slotAt i).state ≠ .verified)
  ∧ ∀ (d : Directory) (x : StripeDone),
    let g := d.apply x
    let marks := (filemarkRecords x.first x.flags).map fun r => (r, x.stripe)
    let waypoint : Option Waypoint := some { stripe := x.stripe, first := x.first, mark := x.pos.mark }
    let stop := (x.pos.onward 6).mark
    g.eodStripe = x.stripe + 1 ∧ g.eodRecord = d.eodRecord + x.flags.countP flagLast ∧ g.generation = d.generation
    ∧ (∀ p, p ≠ x.pos.pass → g.entry p = d.entry p)
    ∧ (x.pos.pass < d.passes.length → ∃ e, g.entry x.pos.pass = some e
        ∧ (d.entry x.pos.pass = none →
            e.first = x.stripe ∧ e.last = x.stripe ∧ e.firstRecord = x.first ∧ e.endMark = stop
            ∧ e.waypoints = (List.replicate 16 none).set x.pos.segment waypoint)
        ∧ ∀ b, d.entry x.pos.pass = some b →
            e.first = b.first ∧ e.last = max b.last x.stripe ∧ e.firstRecord = b.firstRecord
            ∧ e.waypoints
              = (if b.waypoints.getD x.pos.segment none = none then b.waypoints.set x.pos.segment waypoint else b.waypoints)
            ∧ (b.endMark ≤ 60000 →
                e.endMark = if x.pos.pass % 2 = 0 then max b.endMark stop else min b.endMark stop))
    ∧ (d.index.length + marks.length ≤ 512 → g.index = d.index ++ marks ∧ g.complete = d.complete)
    ∧ (d.index.length ≤ 512 → 512 < d.index.length + marks.length →
        g.index = (d.index ++ marks).take 512 ∧ g.complete = false)

/-! ### Rate and speed (R105 to R109) -/

/-- R105, R107 to R109: the rate estimate stays within 4,095, the target within the cap, and the level changes only to a
target that two evaluations in a row have given. -/
def Obligations.RateAndLevelBounded : Prop :=
  (∀ s : State, s.rg.f ≤ 4095 → s.sampleRate.rg.f ≤ 4095)
  ∧ (∀ (f n k free cap : Nat) (d : Direction), targetLevel f d n k free cap ≤ cap)
  ∧ (∀ (f g : Nat), f ≤ g → baseTarget f ≤ baseTarget g)
  ∧ ∀ (r : Rg) (t : Nat),
      (t = r.level → r.follow t = { r with target := none })
      ∧ (t ≠ r.level → r.target = some t → r.follow t = { r with level := t, target := none })
      ∧ (t ≠ r.level → r.target ≠ some t → r.follow t = { r with target := some t })

/-! ### Reading back (R86 to R92) -/

/-- R86 to R92, R107, R110: where a position can start, the lowest FREE slot becomes READING for it, a stripe start of the
governor but in a retry, or the request waits; a pass's end turns the tape, and the last one is end of data; a byte that finds the
channel FIFO full is an overrun; a report for the position is ruled on. A retry drops what was read above n and reads again from
12 marks before the window's origin; after the fourth the failure marker for n is asked for, and takes the lowest FREE slot, n
going on. The MODEL's choices: a retry clears the blank run (log entry 34); a reposition's deceleration passes a free number of
marks (log entry 27); the marker's record has no first record number (log entry 56); RETRY_START makes the stop kind NONE also
after a BACKPRESSURE stop, and the retry's start takes no penalty (log entry 68); a report that is still due where pass 63 ends
counts as missing there (log entry 77); the delivered bytes that still lie in the FIFO pass into the slot as the report comes (log
entry 36); a request passes over the slot that a LOOPBACK sends (log entry 117); the marker of a second round keeps that round's
first bad copy, and with none the window's origin, the old marker's (log entry 118). -/
def Obligations.PositionsAreRead : Prop :=
  (∀ (s : State) (r : ReadState) (p : TapePos), s.tte.read = some r → r.point = some p → s.mc.state = .streaming →
    s.mc.slowing = false → s.mc.thermal = .normal → r.going = true → r.reception = none → r.asked = false →
    s.tte.loopback = none →
    (p.startable = true → s.spm.direction ≠ .readOpen ∨ s.spm.firstIn .reading ≠ none ∨ s.lowestFree = none →
      exec .readPositionStart s = .next (State.finish { s with tte := { s.tte with read := some { r with asked := true } } }))
    ∧ (∀ i, p.startable = true → s.spm.direction = .readOpen → s.spm.firstIn .reading = none → s.lowestFree = some i →
      let e : State :=
        { s with
          spm := { s.spm with slots := s.spm.slots.modify i fun _ => { Slot.empty with state := .reading } }
          tte := { s.tte with
            read := some { r with
              reception := some { slot := i, pos := p, overrun := false, started := false, stored := 0 } } } }
      exec .readPositionStart s = .next (State.finish (if r.inRetry then e else e.evaluate)))
    ∧ (p.startable = false → p.pass < 63 →
      exec .readPositionStart s = .next (State.finish
        { s with mc := s.mc.turn, tte := { s.tte with read := some { r with point := some p.nextPass } } }))
    ∧ (p.startable = false → 63 ≤ p.pass →
      exec .readPositionStart s = .next (s.foundEod { stripe := r.n, byDirectory := false }).finish))
  ∧ (∀ (s : State) (r : ReadState) (x : Reception), s.tte.read = some r → r.reception = some x → x.started = true →
    (16384 ≤ s.tte.fifo.length →
      exec .receptionOverrun s = .next (State.finish
        { s with tte := { s.tte with read := some { r with reception := some { x with overrun := true } } } }))
    ∧ ∀ (blank valid : Bool) (counts : Counts),
      let m : State :=
        { s with
          dram := Memory.writeBytes s.dram (s.slotBase x.slot + x.stored) (s.tte.fifo.take (1048576 - x.stored))
          tte := { s.tte with fifo := [] } }
      exec (.receptionReport x.pos.pass x.pos.mark blank valid counts) s = .next
        (m.rule r x (some (blank, headerValidAt valid (Memory.readBytes m.dram (s.slotBase x.slot) 64) x.pos, counts))).finish)
  ∧ (∀ (s : State) (r : ReadState) (x : Reception) (p : TapePos), s.tte.read = some r → r.reception = some x →
    x.started = true → 63 ≤ p.pass →
    s.readTurn p = match (s.rule r x none).tte.read with
      | some q => (s.rule r x none).foundEod { stripe := q.n, byDirectory := false }
      | none => s.rule r x none)
  ∧ ∀ (s : State) (r : ReadState) (w : Window), s.tte.read = some r → r.window = some w → r.retryDue = true →
    r.reception = none → s.mc.state ≠ .fault → s.mc.job = none →
    (r.inRetry = false ∨ r.retries < 4 →
      let slots := s.spm.slots.map fun x => if x.state = .readDone ∧ r.n < x.stripe.getD 0 then Slot.empty else x
      let e : State :=
        { s with
          spm := { s.spm with slots := slots }
          tte := { s.tte with
            read := some { r with
              asked := false, retries := r.retries + 1, inRetry := true, retryDue := false, blanks := 0
              eod := r.eod.bind fun e => if e.byDirectory then some e else none
              point := some (w.origin.before 12).position, window := some { w with count := 0, counting := false } } }
          rg := { s.rg with stopKind := .none, readStart := .atOnce, held := none } }
      exec .retryStart s = .next (State.finish
        (if s.mc.state = .streaming ∨ s.mc.state = .turnaround then
            { e with free := s.free + 1, mc := s.mc.reposition (Config.stopMarks s.free) }
         else e)))
    ∧ (r.inRetry = true → 4 ≤ r.retries →
      (s.lowestFree = none →
        exec .retryStart s = .next (State.finish
          { s with tte := { s.tte with read := some { r with retryDue := false, markerAsked := true } } }))
      ∧ ∀ i, s.spm.direction = .readOpen → s.lowestFree = some i →
        ∃ e : State, exec .retryStart s = .next e.finish
          ∧ e.spm.slots = s.spm.slots.modify i (fun _ => { Slot.empty with state := .readFailed, stripe := some r.n })
          ∧ e.tte.markers
            = s.tte.markers ++ [{ stripe := r.n, origin := r.firstBad.getD w.origin, met := false }]
          ∧ ∃ q, e.tte.read = some q ∧ r.n < q.n ∧ q.retries = 0 ∧ q.markerAsked = false)

/-- R88, R89: a copy is accepted only with its header valid, its channel neither overrun nor blank, its number at least n,
below a VALID directory's end and carried by no slot that is READ_DONE, READ_FAILED or DELIVERING, its generation not below the
reference, and every row corrected. -/
def Obligations.AcceptedCopiesAreSound : Prop :=
  ∀ (s : State) (r : ReadState) (x : Reception) (h : Header) (report : Option (Bool × Bool × Counts)),
    s.ruling r x h report = .accepted →
    x.overrun = false ∧ (∃ counts, report = some (false, true, counts) ∧ counts.rows = 0)
    ∧ r.n ≤ h.stripe
    ∧ (∀ y ∈ s.spm.slots, y.state = .readDone ∨ y.state = .readFailed ∨ y.state = .delivering → y.stripe ≠ some h.stripe)
    ∧ (∀ d, s.validDirectory = some d → h.stripe < d.eodStripe)
    ∧ ∀ g, s.referenceGeneration r h.stripe = some g → g ≤ h.generation

/-- R125 to R127: in a header search a blank report counts, and an unreadable header; two blanks in a row end the search; a valid
header that carries the target ends it there. R132: a SPACE forward over more filemarks than there are goes to the end of data and
completes END_OF_DATA; that a header at or past the place of a VALID directory's end of data ends its search is the MODEL's
reading (log entry 78, DEDUCED), and that a LOOPBACK in progress changes nothing of it its choice (log entry 129). -/
def Obligations.HeaderReportsAreRuled : Prop :=
  ∀ (s : State) (j : Job) (x : Search) (pass mark : Nat) (header : HeaderRead) (flags : List Byte),
    s.mc.job = some j → j.search = some x → j.stage = .searching → s.mc.state = .moving → s.mc.slowing = false →
    x.goal ≠ .stale → x.window = none →
    (x.blanks = 0 →
      exec (.headerReport pass mark true header flags) s = .next (State.finish
        { s with mc := { s.mc with job := some { j with search := some { x with blanks := 1 } } } }))
    ∧ (1 ≤ x.blanks →
      exec (.headerReport pass mark true header flags) s = .next
        (s.searchEnded j { x with blanks := x.blanks + 1 }).finish)
    ∧ (headerValidAt header.valid header.bytes { pass := pass, mark := mark } = false →
      exec (.headerReport pass mark false header flags) s = .next (State.finish
        { s with mc := { s.mc with job := some { j with search := some { x with blanks := 0 } } } }))
    ∧ (∀ r, headerValidAt header.valid header.bytes { pass := pass, mark := mark } = true → x.goal = .record r →
      x.scan = false → j.finish = none →
      let h := Header.ofBytes header.bytes
      h.first ≤ r → r < h.first + h.entries →
      exec (.headerReport pass mark false header flags) s = .next (State.finish
        { s with mc := { s.mc with
            slowing := true, atSpeed := false, runIn := false, decel := none
            job := some { j with
              stage := .finishing
              finish := some
                { result := .ok
                  detailA := dv 1 pass ++ dv 2 mark ++ dv 1 x.attempt ++ (if j.byRecord then dv 4 h.stripe else du 4)
                  detailB := noDetail
                  pos := some { stripe := h.stripe, record := r
                                boundary := r == h.first && flagFirst (flags.headD 0)
                                carried := { pass := pass, mark := mark }, below := false } } } } }))
    ∧ (∀ d plan low high wanted, headerValidAt header.valid header.bytes { pass := pass, mark := mark } = true →
      x.goal = .marks low high wanted → x.scan = false → s.validDirectory = some d →
      d.endPos.pass < pass
        ∨ (d.endPos.pass = pass ∧ d.endPos.offset ≤ ({ pass := pass, mark := mark } : TapePos).offset) →
      j.space = some plan → plan.filemarks = true → 0 < plan.count → x.found.length < plan.count.natAbs →
      exec (.headerReport pass mark false header flags) s = .next (State.finish
        { s with mc := { s.mc.shuttle d.endPos with
            job := some { j with
              stage := .toPlace
              finish := some
                { result := .endOfData, detailA := dv 4 (int32 x.found.length) ++ du 4
                  detailB := dv 4 (plan.count.natAbs - x.found.length) ++ du 4, pos := some d.endDs } } } }))

/-! ### Delivery (R95 to R100) -/

/-- R30, R59, R93, R95, R97 to R100: a delivery at end of data ends there; the stripe of its position is taken when it stands at
the bottom of the read-ahead order, and a failure marker there, met first, ends the delivery MEDIA_ERROR; the decoder runs ahead;
a hand-over waits for the next stripe, or ends the delivery at the end of data. A record decoded whole ends INTEGRITY_ERROR where
its CRC differs, and with the cursor at L OK, SHORT_RECORD or LONG_RECORD with the residual; a stream that fails a check in its
last piece ends CODING_ERROR. A record that is passed moves the position to the next, frees a slot whose last entry it was, else
returns it, and completes the delivery; a delivery that fails leaves the position. While a motion command moves the position, an
opening delivery waits (log entry 16). How far one step decodes before held reads are examined again (log entry 101), that a
record whose R is reached at the last coded byte of a piece that is not its last fails at once (log entry 102), and that a token
gives all of its output before the next stripe is asked for (log entry 111, in handoverDue), and which stripe a delivery that ends
in a pass-through names (log entry 126), are like it the MODEL's choices. -/
def Obligations.DeliveriesMoveOn : Prop :=
  (∀ s : State, s.ue.state = .opening → s.mc.job = none → s.openingAtEnd = none → ∀ p t i, s.mc.dsPos = some p → s.spm.bottom = some (t, i) →
    (t = p.stripe → (s.slotAt i).state ≠ .readFailed → s.spm.firstIn .delivering = none →
      exec .deliverySlotTaken s = .next
        (State.openEntryOf
          { s with spm := { s.spm with slots := s.spm.slots.modify i fun x => { x with state := .delivering } } } i p).finish)
    ∧ (t ≠ p.stripe → exec .deliverySlotTaken s = .next s.finish))
  ∧ (∀ s : State, s.ue.state = .opening → s.mc.job ≠ none → exec .deliverySlotTaken s = .next s.finish)
  ∧ (∀ (s : State) (p q : DsPos) (id : Nat), s.ue.state = .opening → s.ue.cmd = some id → s.mc.job = none →
    s.openingAtEnd = some (p, q) →
    exec .deliverySlotTaken s = .next (State.finish
      { State.complete { s with mc := { s.mc with dsPos := some q } } id .endOfData (dv 4 p.record ++ dv 4 0)
          (du 4 ++ dv 4 p.stripe) with
        ue := { s.ue with state := .done, cmd := none, length := s.ue.cursor, record := none, output := []
                          decoder := Decoder.empty, crc := 0xFFFFFFFF } }))
  ∧ (∀ (s : State) (d : Delivery), s.ue.record = some d → d.passOver = false → s.ue.state = .open_ →
    let run := Decoding.run d.raw d.compressed false 1024
      { decoder := s.ue.decoder, produced := d.produced, output := s.ue.output, crc := s.ue.crc }
    run.2 = .paused →
    exec .decodeStep s = .next (State.finish
      { s with ue := { s.ue with decoder := run.1.decoder, crc := run.1.crc, output := run.1.output
                                 record := some { d with produced := run.1.produced } } }))
  ∧ (∀ (s : State) (p : DsPos) (t i : Nat) (m : Marker), s.ue.state = .opening → s.mc.job = none → s.openingAtEnd = none →
    s.mc.dsPos = some p → s.spm.bottom = some (t, i) → t = p.stripe → (s.slotAt i).state = .readFailed →
    s.tte.markers.find? (·.stripe == t) = some m → m.met = false →
    exec .deliverySlotTaken s = .next (State.finish (State.failDelivery
      { s with tte := { s.tte with markers := s.tte.markers.map fun k => if k.stripe == t then { k with met := true } else k } }
      .mediaError t)))
  ∧ (∀ (s : State) (d : Delivery), s.ue.record = some d → d.passOver = false → s.ue.state = .open_ ∨ s.ue.state = .finishing →
    let run := Decoding.run d.raw d.compressed (s.ue.state == .finishing) 1024
      { decoder := s.ue.decoder, produced := d.produced, output := s.ue.output, crc := s.ue.crc }
    let q : Delivery := { d with produced := run.1.produced }
    let e : State := { s with ue := { s.ue with
      decoder := run.1.decoder, crc := run.1.crc, output := if s.ue.state = .finishing then [] else run.1.output
      record := some q } }
    (s.entryAt d.slot d.entry).last = true →
    (run.2 = .over → d.fetched = d.pieceLength → run.1.decoder.input = [] →
      exec .decodeStep s = .next e.finishDelivery.finish)
    ∧ (run.2 = .error →
      exec .decodeStep s = .next (e.passRecord d.slot d.entry (d.number, d.raw) .codingError none).finish))
  ∧ (∀ (s : State) (d : Delivery), s.ue.record = some d → d.passOver = false → s.decodedAll d = true →
    let crc := if d.raw = 0 then 0 else (~~~s.ue.crc).toNat
    let ends (r : Result) (residual : Option Nat) : State := s.passRecord d.slot d.entry (d.number, d.raw) r residual
    s.finishDelivery =
      if crc ≠ (s.entryAt d.slot d.entry).crc then ends .integrityError none
      else if s.ue.cursor ≠ s.ue.length then s
      else if d.raw = s.ue.length then ends .ok (some 0)
      else if d.raw < s.ue.length then ends .shortRecord (some (s.ue.length - d.raw))
      else ends .longRecord (some (d.raw - s.ue.length)))
  ∧ (∀ (s : State) (id : Nat) (k : Taken), s.ue.cmd = some id →
    (s.ci.outstanding.find? fun u => u.id == id && u.stage != .handed) = some k →
    let done (t : State) (r : Result) (x : Nat × Nat) (residual : Option Nat) (stripe : Nat) : Prop :=
      t.ue.state = .done ∧ t.ue.cmd = none ∧ t.ue.length = s.ue.cursor ∧ t.ue.output = [] ∧ t.ue.record = none
      ∧ ∃ i, t.cw.pending = s.cw.pending ++ [i] ∧ i.cmd = some id ∧ i.tag = k.tag ∧ i.value = r.code
        ∧ i.detailA = dv 4 x.1 ++ dv 4 x.2
        ∧ i.detailB = (match residual with | some n => dv 4 n | none => du 4) ++ dv 4 stripe
    (∀ (i e : Nat) (x : Nat × Nat) (r : Result) (residual : Option Nat),
      let t := s.passRecord i e x r residual
      done t r x residual ((s.slotAt i).stripe.getD 0) ∧ (∃ p, t.mc.dsPos = some p ∧ p.record = x.1 + 1)
      ∧ ((s.slotAt i).entries ≤ e + 1 → t.spm.slots = s.spm.slots.modify i fun _ => Slot.empty)
      ∧ (e + 1 < (s.slotAt i).entries → ∀ n, s.spm.firstIn .delivering = some n →
          t.spm.slots = s.spm.slots.modify n fun y => { y with state := .readDone }))
    ∧ ∀ (r : Result) (stripe : Nat),
      done (s.failDelivery r stripe) r s.deliveryRecord none stripe ∧ (s.failDelivery r stripe).mc.dsPos = s.mc.dsPos)
  ∧ ∀ (s : State) (d : Delivery), s.handoverDue = some d →
    (∀ r e, s.tte.read = some r → r.eod = some e → r.window = none → e.stripe ≤ d.stripe + 1 →
      exec .handover s = .next
        (if d.passOver then s.failDelivery .codingError d.stripe else s.failDelivery .endOfData (d.stripe + 1)).finish)
    ∧ (∀ j, (s.tte.read.bind (·.eod)) = none → s.spm.bottom = some (d.stripe + 1, j) → (s.slotAt j).state ≠ .readFailed →
      exec .handover s = .next (s.handTo d j).finish)

end
end

