-- ==== Sys2Proof/Laws/Judge.lean ====
section
/-! SUPPORT. A failed verify leaves the stripe in flight, the channel FIFO, the run-on, the motion and the clearing as they stood
(R27, R71, R72): what its deadline may rest on. -/

namespace Sys2Proof.Machine

/-- The stripe in flight, the channel FIFO, the run-on, the motion and the clearing. -/
def State.running (s : State) : Option InFlight × List Byte × Option Nat × Bool × Mc × Bool :=
  (s.tte.inFlight, s.tte.fifo, s.tte.runOn, s.tte.underrun, s.mc, s.spm.clearing)

/-! ### Updates -/

@[simp] theorem State.onPins_running (s : State) (f : Pins → Pins) : (s.onPins f).running = s.running := rfl
@[simp] theorem State.onBpu_running (s : State) (f : Bpu → Bpu) : (s.onBpu f).running = s.running := rfl
@[simp] theorem State.onCi_running (s : State) (f : Ci → Ci) : (s.onCi f).running = s.running := rfl
@[simp] theorem State.onCw_running (s : State) (f : Cw → Cw) : (s.onCw f).running = s.running := rfl
@[simp] theorem State.onPe_running (s : State) (f : Pe → Pe) : (s.onPe f).running = s.running := rfl
@[simp] theorem State.onRg_running (s : State) (f : Rg → Rg) : (s.onRg f).running = s.running := rfl
@[simp] theorem State.onCml_running (s : State) (f : Cml → Cml) : (s.onCml f).running = s.running := rfl
@[simp] theorem State.onHm_running (s : State) (f : Hm → Hm) : (s.onHm f).running = s.running := rfl
@[simp] theorem State.setSlot_running (s : State) (i : Nat) (f : Slot → Slot) : (s.setSlot i f).running = s.running := rfl
@[simp] theorem State.freeSlot_running (s : State) (i : Nat) : (s.freeSlot i).running = s.running := rfl
@[simp] theorem State.freeAll_running (s : State) (ok : Slot → Bool) : (s.freeAll ok).running = s.running := rfl
@[simp] theorem State.sampleRate_running (s : State) : s.sampleRate.running = s.running := rfl
@[simp] theorem State.applyStripe_running (s : State) (x : StripeDone) : (s.applyStripe x).running = s.running := rfl

/-! ### Completions, notes and health -/

@[simp] theorem State.tryRecord_running (s : State) : s.tryRecord.running = s.running := by
  unfold State.tryRecord
  split <;> rfl

@[simp] theorem State.complete_running (s : State) (id : Nat) (r : Result) (a b : Detail) :
    (s.complete id r a b).running = s.running := by
  unfold State.complete
  split <;> simp

@[simp] theorem State.completeIntake_running (cs : List IntakeCmd) (r : Result) :
    ∀ s : State, (s.completeIntake cs r).running = s.running := by
  unfold State.completeIntake
  induction cs with
  | nil => exact fun _ => rfl
  | cons c cs ih => exact fun s => (ih _).trans (by simp)

@[simp] theorem State.note_running (s : State) (k : NoteKind) (a b : Detail) : (s.note k a b).running = s.running := by
  unfold State.note
  split <;> simp

@[simp] theorem State.setIndex_running (s : State) (ci cause : Nat) : (s.setIndex ci cause).running = s.running := by
  simp only [State.setIndex, State.enterHealth]
  repeat' split
  all_goals simp

@[simp] theorem State.score_running (s : State) (verify needs : Bool) (c : Option Counts) (stripe : Nat) :
    (s.score verify needs c stripe).running = s.running := by simp [State.score]

/-! ### Slots -/

@[simp] theorem State.moveSlot_running (s : State) (i : Nat) (old new : SlotState) (f : Slot → Slot) :
    (s.moveSlot i old new f).running = s.running := by
  unfold State.moveSlot
  split <;> rfl

@[simp] theorem State.triggerSeal_running (s : State) : s.triggerSeal.running = s.running := by
  simp only [State.triggerSeal, State.withdrawBare]
  repeat' split
  all_goals rfl

@[simp] theorem State.freeVerified_running : ∀ (n : Nat) (s : State), (State.freeVerified n s).running = s.running
  | 0, _ => rfl
  | n + 1, s => by
    unfold State.freeVerified
    dsimp only
    repeat' split
    all_goals simp [State.freeVerified_running n]

@[simp] theorem State.freeRun_running (s : State) : s.freeRun.running = s.running := by
  simp only [State.freeRun, State.freeVerified_running, State.sweepDropped]
  split <;> simp

@[simp] theorem State.dropSlot_running (s : State) (i : Nat) : (s.dropSlot i).running = s.running := by
  simp only [State.dropSlot, State.freeRun_running, State.freeSlot_running]
  rfl

@[simp] theorem State.enterWriteFailed_running (s : State) (cause : Cause) :
    (s.enterWriteFailed cause).running = s.running := by
  simp only [State.enterWriteFailed, State.completeIntake_running, State.onPe_running, State.onRg_running]
  refine (show _ = (if s.triggerSeal.spm.sealing.isSome then s.triggerSeal.sampleRate else s.triggerSeal).running from rfl).trans ?_
  split <;> simp

@[simp] theorem State.permanentFailure_running (s : State) (i : Nat) (c : Option Counts) :
    (s.permanentFailure i c).running = s.running := by simp [State.permanentFailure, State.raiseIndex]

/-- A failed verify leaves what the channel and the motion do as it is (R27, R71, R72). -/
theorem State.judgeFailed_running (s : State) (i : Nat) (c : Option Counts) : (s.judgeFailed i c).running = s.running := by
  have h : (s.onTte fun t => { t with verify := none }).running = s.running := rfl
  simp only [State.judgeFailed, State.raiseIndex]
  repeat' split
  all_goals simp [h]

end Sys2Proof.Machine
end

