-- ==== Sys2Proof/Laws/Memory.lean ====
section
/-! SUPPORT. The laws of the sparse memory: read after write, and that every operation keeps the canonical form. -/

namespace Sys2Proof.Machine

theorem Memory.read_below {low : Nat} : ∀ {m : List Host.Cell}, Memory.wfFrom low m = true → ∀ {a}, a < low →
    Memory.read m a = Memory.blank
  | [], _, _, _ => rfl
  | (k, v) :: rest, h, a, ha => by
    simp only [Memory.wfFrom, Bool.and_eq_true, decide_eq_true_eq] at h
    have hk : k ≠ a := by omega
    simp only [Memory.read, hk, if_false]
    exact Memory.read_below h.2 (by omega)

theorem Memory.wfFrom_mono : ∀ {m : List Host.Cell} {low l : Nat}, l ≤ low → Memory.wfFrom low m = true →
    Memory.wfFrom l m = true
  | [], _, _, _, _ => rfl
  | (k, v) :: rest, low, l, hl, h => by
    simp only [Memory.wfFrom, Bool.and_eq_true, decide_eq_true_eq] at h ⊢
    exact ⟨⟨by omega, h.1.2⟩, h.2⟩

theorem Memory.wfFrom_write : ∀ {m : List Host.Cell} {low a : Nat} (b : Byte), low ≤ a → Memory.wfFrom low m = true →
    Memory.wfFrom low (Memory.write m a b) = true
  | [], low, a, b, ha, _ => by
    unfold Memory.write
    split
    · rfl
    · rename_i hb; simp [Memory.wfFrom, ha, hb]
  | (k, v) :: rest, low, a, b, ha, h => by
    have h' := h
    simp only [Memory.wfFrom, Bool.and_eq_true, decide_eq_true_eq] at h'
    obtain ⟨⟨hk, hv⟩, hr⟩ := h'
    unfold Memory.write
    split
    · split
      · exact h
      · rename_i hak hb
        simp only [Memory.wfFrom, Bool.and_eq_true, decide_eq_true_eq]
        exact ⟨⟨ha, hb⟩, ⟨by omega, hv⟩, hr⟩
    · split
      · split
        · exact Memory.wfFrom_mono (by omega) hr
        · rename_i hb; subst_vars
          simp only [Memory.wfFrom, Bool.and_eq_true, decide_eq_true_eq]
          exact ⟨⟨ha, hb⟩, hr⟩
      · simp only [Memory.wfFrom, Bool.and_eq_true, decide_eq_true_eq]
        exact ⟨⟨hk, hv⟩, Memory.wfFrom_write b (by omega) hr⟩

/-- A write keeps the canonical form. -/
theorem Memory.wf_write {m : List Host.Cell} (a : Nat) (b : Byte) (h : Memory.wf m = true) :
    Memory.wf (Memory.write m a b) = true := Memory.wfFrom_write b (Nat.zero_le a) h

/-- Writing bytes keeps the canonical form. -/
theorem Memory.wf_writeBytes : ∀ (bs : List Byte) {m : List Host.Cell} (a : Nat), Memory.wf m = true →
    Memory.wf (Memory.writeBytes m a bs) = true
  | [], _, _, h => h
  | b :: bs, _, a, h => Memory.wf_writeBytes bs (a + 1) (Memory.wf_write a b h)

/-- Writing a line's marked bytes keeps the canonical form. -/
theorem Memory.wf_writeMarked : ∀ (bs : List (Option Byte)) {m : List Host.Cell} (a : Nat), Memory.wf m = true →
    Memory.wf (Memory.writeMarked m a bs) = true
  | [], _, _, h => h
  | some b :: bs, _, a, h => Memory.wf_writeMarked bs (a + 1) (Memory.wf_write a b h)
  | none :: bs, _, a, h => Memory.wf_writeMarked bs (a + 1) h

/-- A memory made from cells is canonical. -/
theorem Memory.wf_ofCells (size : Nat) (cells : List Host.Cell) : Memory.wf (Memory.ofCells size cells) = true := by
  unfold Memory.ofCells
  suffices h : ∀ (cs : List Host.Cell) (m : List Host.Cell), Memory.wf m = true →
      Memory.wf (cs.foldl (fun m c => if c.1 < size then Memory.write m c.1 c.2 else m) m) = true from h cells [] rfl
  intro cs
  induction cs with
  | nil => exact fun _ h => h
  | cons c cs ih => exact fun m h => ih _ (by dsimp only; split; exacts [Memory.wf_write _ _ h, h])

theorem Memory.read_write_from : ∀ {m : List Host.Cell} {low a : Nat} (b : Byte) (x : Nat), low ≤ a →
    Memory.wfFrom low m = true → Memory.read (Memory.write m a b) x = if x = a then b else Memory.read m x
  | [], low, a, b, x, _, _ => by
    unfold Memory.write
    by_cases hx : x = a
    · subst hx; by_cases hb : b = Memory.blank <;> simp [hb, Memory.read]
    · have : a ≠ x := fun h => hx h.symm
      by_cases hb : b = Memory.blank <;> simp [hb, hx, this, Memory.read]
  | (k, v) :: rest, low, a, b, x, ha, h => by
    simp only [Memory.wfFrom, Bool.and_eq_true, decide_eq_true_eq] at h
    obtain ⟨⟨hk, hv⟩, hr⟩ := h
    unfold Memory.write
    by_cases hak : a < k
    · have hblank : Memory.read ((k, v) :: rest) a = Memory.blank := by
        have hka : k ≠ a := by omega
        simp only [Memory.read, hka, if_false]
        exact Memory.read_below hr (by omega)
      by_cases hb : b = Memory.blank
      · simp only [hak, hb, if_true]
        by_cases hx : x = a
        · subst hx; simp [hblank]
        · simp [hx]
      · simp only [hak, hb, if_true, if_false]
        by_cases hx : x = a
        · subst hx; simp [Memory.read]
        · have : a ≠ x := fun h => hx h.symm
          rw [Memory.read.eq_2]; simp [this, hx]
    · by_cases hke : a = k
      · subst hke
        have hlt : ¬ a < a := by omega
        by_cases hx : x = a
        · subst hx
          by_cases hb : b = Memory.blank
          · simp only [hlt, hb, if_true, if_false]
            exact Memory.read_below hr (by omega)
          · simp [hb, Memory.read]
        · have : a ≠ x := fun h => hx h.symm
          by_cases hb : b = Memory.blank <;> simp [hb, Memory.read, this, hx]
      · simp only [hak, hke, if_false]
        by_cases hkx : k = x
        · subst hkx
          have : ¬ k = a := fun h => hke h.symm
          simp [Memory.read, this]
        · simp only [Memory.read, hkx, if_false]
          exact Memory.read_write_from b x (by omega) hr

/-- A byte read after a write is the byte written at its address, and as before elsewhere. -/
theorem Memory.read_write {m : List Host.Cell} (h : Memory.wf m = true) (a : Nat) (b : Byte) (x : Nat) :
    Memory.read (Memory.write m a b) x = if x = a then b else Memory.read m x :=
  Memory.read_write_from b x (Nat.zero_le a) h

/-- A byte outside the bytes written reads as before. -/
theorem Memory.read_writeBytes_outside : ∀ (bs : List Byte) {m : List Host.Cell} (a x : Nat), Memory.wf m = true →
    x < a ∨ a + bs.length ≤ x → Memory.read (Memory.writeBytes m a bs) x = Memory.read m x
  | [], _, _, _, _, _ => rfl
  | b :: bs, m, a, x, h, hx => by
    simp only [List.length_cons] at hx
    have hne : x ≠ a := by omega
    rw [Memory.writeBytes, Memory.read_writeBytes_outside bs (a + 1) x (Memory.wf_write a b h) (by omega),
      Memory.read_write h, if_neg hne]

/-- A byte inside the bytes written reads as written. -/
theorem Memory.read_writeBytes_inside : ∀ (bs : List Byte) {m : List Host.Cell} (a i : Nat), Memory.wf m = true →
    i < bs.length → Memory.read (Memory.writeBytes m a bs) (a + i) = bs.getD i 0
  | [], _, _, i, _, hi => absurd hi (Nat.not_lt_zero i)
  | b :: bs, m, a, 0, h, _ => by
    rw [Memory.writeBytes, Memory.read_writeBytes_outside bs (a + 1) (a + 0) (Memory.wf_write a b h) (by omega),
      Memory.read_write h]
    simp
  | b :: bs, m, a, i + 1, h, hi => by
    have hi' : i < bs.length := by simpa using hi
    have := Memory.read_writeBytes_inside bs (m := Memory.write m a b) (a + 1) i (Memory.wf_write a b h) hi'
    rw [Memory.writeBytes, show a + (i + 1) = a + 1 + i by omega, this]
    simp

end Sys2Proof.Machine
end

