-- ==== Sys2Proof/Laws/State.lean ====
section
/-! SUPPORT. What an update of one block does to each field of State: one lemma per field per update. -/

namespace Sys2Proof.Machine

section

variable (s : State) (f : List Host.Cell → List Host.Cell)

@[simp] theorem State.onDram_now : (s.onDram f).now = s.now := rfl
@[simp] theorem State.onDram_free : (s.onDram f).free = s.free := rfl
@[simp] theorem State.onDram_dram : (s.onDram f).dram = f s.dram := rfl
@[simp] theorem State.onDram_cartridge : (s.onDram f).cartridge = s.cartridge := rfl
@[simp] theorem State.onDram_pins : (s.onDram f).pins = s.pins := rfl
@[simp] theorem State.onDram_bpu : (s.onDram f).bpu = s.bpu := rfl
@[simp] theorem State.onDram_ci : (s.onDram f).ci = s.ci := rfl
@[simp] theorem State.onDram_cw : (s.onDram f).cw = s.cw := rfl
@[simp] theorem State.onDram_pe : (s.onDram f).pe = s.pe := rfl
@[simp] theorem State.onDram_spm : (s.onDram f).spm = s.spm := rfl
@[simp] theorem State.onDram_tte : (s.onDram f).tte = s.tte := rfl
@[simp] theorem State.onDram_ue : (s.onDram f).ue = s.ue := rfl
@[simp] theorem State.onDram_rg : (s.onDram f).rg = s.rg := rfl
@[simp] theorem State.onDram_mc : (s.onDram f).mc = s.mc := rfl
@[simp] theorem State.onDram_cml : (s.onDram f).cml = s.cml := rfl
@[simp] theorem State.onDram_ss : (s.onDram f).ss = s.ss := rfl
@[simp] theorem State.onDram_hm : (s.onDram f).hm = s.hm := rfl
@[simp] theorem State.onDram_pending : (s.onDram f).pending = s.pending := rfl

end

section

variable (s : State) (f : List Host.Cell → List Host.Cell)

@[simp] theorem State.onCartridge_now : (s.onCartridge f).now = s.now := rfl
@[simp] theorem State.onCartridge_free : (s.onCartridge f).free = s.free := rfl
@[simp] theorem State.onCartridge_dram : (s.onCartridge f).dram = s.dram := rfl
@[simp] theorem State.onCartridge_cartridge : (s.onCartridge f).cartridge = f s.cartridge := rfl
@[simp] theorem State.onCartridge_pins : (s.onCartridge f).pins = s.pins := rfl
@[simp] theorem State.onCartridge_bpu : (s.onCartridge f).bpu = s.bpu := rfl
@[simp] theorem State.onCartridge_ci : (s.onCartridge f).ci = s.ci := rfl
@[simp] theorem State.onCartridge_cw : (s.onCartridge f).cw = s.cw := rfl
@[simp] theorem State.onCartridge_pe : (s.onCartridge f).pe = s.pe := rfl
@[simp] theorem State.onCartridge_spm : (s.onCartridge f).spm = s.spm := rfl
@[simp] theorem State.onCartridge_tte : (s.onCartridge f).tte = s.tte := rfl
@[simp] theorem State.onCartridge_ue : (s.onCartridge f).ue = s.ue := rfl
@[simp] theorem State.onCartridge_rg : (s.onCartridge f).rg = s.rg := rfl
@[simp] theorem State.onCartridge_mc : (s.onCartridge f).mc = s.mc := rfl
@[simp] theorem State.onCartridge_cml : (s.onCartridge f).cml = s.cml := rfl
@[simp] theorem State.onCartridge_ss : (s.onCartridge f).ss = s.ss := rfl
@[simp] theorem State.onCartridge_hm : (s.onCartridge f).hm = s.hm := rfl
@[simp] theorem State.onCartridge_pending : (s.onCartridge f).pending = s.pending := rfl

end

section

variable (s : State) (f : Pins → Pins)

@[simp] theorem State.onPins_now : (s.onPins f).now = s.now := rfl
@[simp] theorem State.onPins_free : (s.onPins f).free = s.free := rfl
@[simp] theorem State.onPins_dram : (s.onPins f).dram = s.dram := rfl
@[simp] theorem State.onPins_cartridge : (s.onPins f).cartridge = s.cartridge := rfl
@[simp] theorem State.onPins_pins : (s.onPins f).pins = f s.pins := rfl
@[simp] theorem State.onPins_bpu : (s.onPins f).bpu = s.bpu := rfl
@[simp] theorem State.onPins_ci : (s.onPins f).ci = s.ci := rfl
@[simp] theorem State.onPins_cw : (s.onPins f).cw = s.cw := rfl
@[simp] theorem State.onPins_pe : (s.onPins f).pe = s.pe := rfl
@[simp] theorem State.onPins_spm : (s.onPins f).spm = s.spm := rfl
@[simp] theorem State.onPins_tte : (s.onPins f).tte = s.tte := rfl
@[simp] theorem State.onPins_ue : (s.onPins f).ue = s.ue := rfl
@[simp] theorem State.onPins_rg : (s.onPins f).rg = s.rg := rfl
@[simp] theorem State.onPins_mc : (s.onPins f).mc = s.mc := rfl
@[simp] theorem State.onPins_cml : (s.onPins f).cml = s.cml := rfl
@[simp] theorem State.onPins_ss : (s.onPins f).ss = s.ss := rfl
@[simp] theorem State.onPins_hm : (s.onPins f).hm = s.hm := rfl
@[simp] theorem State.onPins_pending : (s.onPins f).pending = s.pending := rfl

end

section

variable (s : State) (f : Bpu → Bpu)

@[simp] theorem State.onBpu_now : (s.onBpu f).now = s.now := rfl
@[simp] theorem State.onBpu_free : (s.onBpu f).free = s.free := rfl
@[simp] theorem State.onBpu_dram : (s.onBpu f).dram = s.dram := rfl
@[simp] theorem State.onBpu_cartridge : (s.onBpu f).cartridge = s.cartridge := rfl
@[simp] theorem State.onBpu_pins : (s.onBpu f).pins = s.pins := rfl
@[simp] theorem State.onBpu_bpu : (s.onBpu f).bpu = f s.bpu := rfl
@[simp] theorem State.onBpu_ci : (s.onBpu f).ci = s.ci := rfl
@[simp] theorem State.onBpu_cw : (s.onBpu f).cw = s.cw := rfl
@[simp] theorem State.onBpu_pe : (s.onBpu f).pe = s.pe := rfl
@[simp] theorem State.onBpu_spm : (s.onBpu f).spm = s.spm := rfl
@[simp] theorem State.onBpu_tte : (s.onBpu f).tte = s.tte := rfl
@[simp] theorem State.onBpu_ue : (s.onBpu f).ue = s.ue := rfl
@[simp] theorem State.onBpu_rg : (s.onBpu f).rg = s.rg := rfl
@[simp] theorem State.onBpu_mc : (s.onBpu f).mc = s.mc := rfl
@[simp] theorem State.onBpu_cml : (s.onBpu f).cml = s.cml := rfl
@[simp] theorem State.onBpu_ss : (s.onBpu f).ss = s.ss := rfl
@[simp] theorem State.onBpu_hm : (s.onBpu f).hm = s.hm := rfl
@[simp] theorem State.onBpu_pending : (s.onBpu f).pending = s.pending := rfl

end

section

variable (s : State) (f : Ci → Ci)

@[simp] theorem State.onCi_now : (s.onCi f).now = s.now := rfl
@[simp] theorem State.onCi_free : (s.onCi f).free = s.free := rfl
@[simp] theorem State.onCi_dram : (s.onCi f).dram = s.dram := rfl
@[simp] theorem State.onCi_cartridge : (s.onCi f).cartridge = s.cartridge := rfl
@[simp] theorem State.onCi_pins : (s.onCi f).pins = s.pins := rfl
@[simp] theorem State.onCi_bpu : (s.onCi f).bpu = s.bpu := rfl
@[simp] theorem State.onCi_ci : (s.onCi f).ci = f s.ci := rfl
@[simp] theorem State.onCi_cw : (s.onCi f).cw = s.cw := rfl
@[simp] theorem State.onCi_pe : (s.onCi f).pe = s.pe := rfl
@[simp] theorem State.onCi_spm : (s.onCi f).spm = s.spm := rfl
@[simp] theorem State.onCi_tte : (s.onCi f).tte = s.tte := rfl
@[simp] theorem State.onCi_ue : (s.onCi f).ue = s.ue := rfl
@[simp] theorem State.onCi_rg : (s.onCi f).rg = s.rg := rfl
@[simp] theorem State.onCi_mc : (s.onCi f).mc = s.mc := rfl
@[simp] theorem State.onCi_cml : (s.onCi f).cml = s.cml := rfl
@[simp] theorem State.onCi_ss : (s.onCi f).ss = s.ss := rfl
@[simp] theorem State.onCi_hm : (s.onCi f).hm = s.hm := rfl
@[simp] theorem State.onCi_pending : (s.onCi f).pending = s.pending := rfl

end

section

variable (s : State) (f : Cw → Cw)

@[simp] theorem State.onCw_now : (s.onCw f).now = s.now := rfl
@[simp] theorem State.onCw_free : (s.onCw f).free = s.free := rfl
@[simp] theorem State.onCw_dram : (s.onCw f).dram = s.dram := rfl
@[simp] theorem State.onCw_cartridge : (s.onCw f).cartridge = s.cartridge := rfl
@[simp] theorem State.onCw_pins : (s.onCw f).pins = s.pins := rfl
@[simp] theorem State.onCw_bpu : (s.onCw f).bpu = s.bpu := rfl
@[simp] theorem State.onCw_ci : (s.onCw f).ci = s.ci := rfl
@[simp] theorem State.onCw_cw : (s.onCw f).cw = f s.cw := rfl
@[simp] theorem State.onCw_pe : (s.onCw f).pe = s.pe := rfl
@[simp] theorem State.onCw_spm : (s.onCw f).spm = s.spm := rfl
@[simp] theorem State.onCw_tte : (s.onCw f).tte = s.tte := rfl
@[simp] theorem State.onCw_ue : (s.onCw f).ue = s.ue := rfl
@[simp] theorem State.onCw_rg : (s.onCw f).rg = s.rg := rfl
@[simp] theorem State.onCw_mc : (s.onCw f).mc = s.mc := rfl
@[simp] theorem State.onCw_cml : (s.onCw f).cml = s.cml := rfl
@[simp] theorem State.onCw_ss : (s.onCw f).ss = s.ss := rfl
@[simp] theorem State.onCw_hm : (s.onCw f).hm = s.hm := rfl
@[simp] theorem State.onCw_pending : (s.onCw f).pending = s.pending := rfl

end

section

variable (s : State) (f : Pe → Pe)

@[simp] theorem State.onPe_now : (s.onPe f).now = s.now := rfl
@[simp] theorem State.onPe_free : (s.onPe f).free = s.free := rfl
@[simp] theorem State.onPe_dram : (s.onPe f).dram = s.dram := rfl
@[simp] theorem State.onPe_cartridge : (s.onPe f).cartridge = s.cartridge := rfl
@[simp] theorem State.onPe_pins : (s.onPe f).pins = s.pins := rfl
@[simp] theorem State.onPe_bpu : (s.onPe f).bpu = s.bpu := rfl
@[simp] theorem State.onPe_ci : (s.onPe f).ci = s.ci := rfl
@[simp] theorem State.onPe_cw : (s.onPe f).cw = s.cw := rfl
@[simp] theorem State.onPe_pe : (s.onPe f).pe = f s.pe := rfl
@[simp] theorem State.onPe_spm : (s.onPe f).spm = s.spm := rfl
@[simp] theorem State.onPe_tte : (s.onPe f).tte = s.tte := rfl
@[simp] theorem State.onPe_ue : (s.onPe f).ue = s.ue := rfl
@[simp] theorem State.onPe_rg : (s.onPe f).rg = s.rg := rfl
@[simp] theorem State.onPe_mc : (s.onPe f).mc = s.mc := rfl
@[simp] theorem State.onPe_cml : (s.onPe f).cml = s.cml := rfl
@[simp] theorem State.onPe_ss : (s.onPe f).ss = s.ss := rfl
@[simp] theorem State.onPe_hm : (s.onPe f).hm = s.hm := rfl
@[simp] theorem State.onPe_pending : (s.onPe f).pending = s.pending := rfl

end

section

variable (s : State) (f : Spm → Spm)

@[simp] theorem State.onSpm_now : (s.onSpm f).now = s.now := rfl
@[simp] theorem State.onSpm_free : (s.onSpm f).free = s.free := rfl
@[simp] theorem State.onSpm_dram : (s.onSpm f).dram = s.dram := rfl
@[simp] theorem State.onSpm_cartridge : (s.onSpm f).cartridge = s.cartridge := rfl
@[simp] theorem State.onSpm_pins : (s.onSpm f).pins = s.pins := rfl
@[simp] theorem State.onSpm_bpu : (s.onSpm f).bpu = s.bpu := rfl
@[simp] theorem State.onSpm_ci : (s.onSpm f).ci = s.ci := rfl
@[simp] theorem State.onSpm_cw : (s.onSpm f).cw = s.cw := rfl
@[simp] theorem State.onSpm_pe : (s.onSpm f).pe = s.pe := rfl
@[simp] theorem State.onSpm_spm : (s.onSpm f).spm = f s.spm := rfl
@[simp] theorem State.onSpm_tte : (s.onSpm f).tte = s.tte := rfl
@[simp] theorem State.onSpm_ue : (s.onSpm f).ue = s.ue := rfl
@[simp] theorem State.onSpm_rg : (s.onSpm f).rg = s.rg := rfl
@[simp] theorem State.onSpm_mc : (s.onSpm f).mc = s.mc := rfl
@[simp] theorem State.onSpm_cml : (s.onSpm f).cml = s.cml := rfl
@[simp] theorem State.onSpm_ss : (s.onSpm f).ss = s.ss := rfl
@[simp] theorem State.onSpm_hm : (s.onSpm f).hm = s.hm := rfl
@[simp] theorem State.onSpm_pending : (s.onSpm f).pending = s.pending := rfl

end

section

variable (s : State) (f : Tte → Tte)

@[simp] theorem State.onTte_now : (s.onTte f).now = s.now := rfl
@[simp] theorem State.onTte_free : (s.onTte f).free = s.free := rfl
@[simp] theorem State.onTte_dram : (s.onTte f).dram = s.dram := rfl
@[simp] theorem State.onTte_cartridge : (s.onTte f).cartridge = s.cartridge := rfl
@[simp] theorem State.onTte_pins : (s.onTte f).pins = s.pins := rfl
@[simp] theorem State.onTte_bpu : (s.onTte f).bpu = s.bpu := rfl
@[simp] theorem State.onTte_ci : (s.onTte f).ci = s.ci := rfl
@[simp] theorem State.onTte_cw : (s.onTte f).cw = s.cw := rfl
@[simp] theorem State.onTte_pe : (s.onTte f).pe = s.pe := rfl
@[simp] theorem State.onTte_spm : (s.onTte f).spm = s.spm := rfl
@[simp] theorem State.onTte_tte : (s.onTte f).tte = f s.tte := rfl
@[simp] theorem State.onTte_ue : (s.onTte f).ue = s.ue := rfl
@[simp] theorem State.onTte_rg : (s.onTte f).rg = s.rg := rfl
@[simp] theorem State.onTte_mc : (s.onTte f).mc = s.mc := rfl
@[simp] theorem State.onTte_cml : (s.onTte f).cml = s.cml := rfl
@[simp] theorem State.onTte_ss : (s.onTte f).ss = s.ss := rfl
@[simp] theorem State.onTte_hm : (s.onTte f).hm = s.hm := rfl
@[simp] theorem State.onTte_pending : (s.onTte f).pending = s.pending := rfl

end

section

variable (s : State) (f : Ue → Ue)

@[simp] theorem State.onUe_now : (s.onUe f).now = s.now := rfl
@[simp] theorem State.onUe_free : (s.onUe f).free = s.free := rfl
@[simp] theorem State.onUe_dram : (s.onUe f).dram = s.dram := rfl
@[simp] theorem State.onUe_cartridge : (s.onUe f).cartridge = s.cartridge := rfl
@[simp] theorem State.onUe_pins : (s.onUe f).pins = s.pins := rfl
@[simp] theorem State.onUe_bpu : (s.onUe f).bpu = s.bpu := rfl
@[simp] theorem State.onUe_ci : (s.onUe f).ci = s.ci := rfl
@[simp] theorem State.onUe_cw : (s.onUe f).cw = s.cw := rfl
@[simp] theorem State.onUe_pe : (s.onUe f).pe = s.pe := rfl
@[simp] theorem State.onUe_spm : (s.onUe f).spm = s.spm := rfl
@[simp] theorem State.onUe_tte : (s.onUe f).tte = s.tte := rfl
@[simp] theorem State.onUe_ue : (s.onUe f).ue = f s.ue := rfl
@[simp] theorem State.onUe_rg : (s.onUe f).rg = s.rg := rfl
@[simp] theorem State.onUe_mc : (s.onUe f).mc = s.mc := rfl
@[simp] theorem State.onUe_cml : (s.onUe f).cml = s.cml := rfl
@[simp] theorem State.onUe_ss : (s.onUe f).ss = s.ss := rfl
@[simp] theorem State.onUe_hm : (s.onUe f).hm = s.hm := rfl
@[simp] theorem State.onUe_pending : (s.onUe f).pending = s.pending := rfl

end

section

variable (s : State) (f : Rg → Rg)

@[simp] theorem State.onRg_now : (s.onRg f).now = s.now := rfl
@[simp] theorem State.onRg_free : (s.onRg f).free = s.free := rfl
@[simp] theorem State.onRg_dram : (s.onRg f).dram = s.dram := rfl
@[simp] theorem State.onRg_cartridge : (s.onRg f).cartridge = s.cartridge := rfl
@[simp] theorem State.onRg_pins : (s.onRg f).pins = s.pins := rfl
@[simp] theorem State.onRg_bpu : (s.onRg f).bpu = s.bpu := rfl
@[simp] theorem State.onRg_ci : (s.onRg f).ci = s.ci := rfl
@[simp] theorem State.onRg_cw : (s.onRg f).cw = s.cw := rfl
@[simp] theorem State.onRg_pe : (s.onRg f).pe = s.pe := rfl
@[simp] theorem State.onRg_spm : (s.onRg f).spm = s.spm := rfl
@[simp] theorem State.onRg_tte : (s.onRg f).tte = s.tte := rfl
@[simp] theorem State.onRg_ue : (s.onRg f).ue = s.ue := rfl
@[simp] theorem State.onRg_rg : (s.onRg f).rg = f s.rg := rfl
@[simp] theorem State.onRg_mc : (s.onRg f).mc = s.mc := rfl
@[simp] theorem State.onRg_cml : (s.onRg f).cml = s.cml := rfl
@[simp] theorem State.onRg_ss : (s.onRg f).ss = s.ss := rfl
@[simp] theorem State.onRg_hm : (s.onRg f).hm = s.hm := rfl
@[simp] theorem State.onRg_pending : (s.onRg f).pending = s.pending := rfl

end

section

variable (s : State) (f : Mc → Mc)

@[simp] theorem State.onMc_now : (s.onMc f).now = s.now := rfl
@[simp] theorem State.onMc_free : (s.onMc f).free = s.free := rfl
@[simp] theorem State.onMc_dram : (s.onMc f).dram = s.dram := rfl
@[simp] theorem State.onMc_cartridge : (s.onMc f).cartridge = s.cartridge := rfl
@[simp] theorem State.onMc_pins : (s.onMc f).pins = s.pins := rfl
@[simp] theorem State.onMc_bpu : (s.onMc f).bpu = s.bpu := rfl
@[simp] theorem State.onMc_ci : (s.onMc f).ci = s.ci := rfl
@[simp] theorem State.onMc_cw : (s.onMc f).cw = s.cw := rfl
@[simp] theorem State.onMc_pe : (s.onMc f).pe = s.pe := rfl
@[simp] theorem State.onMc_spm : (s.onMc f).spm = s.spm := rfl
@[simp] theorem State.onMc_tte : (s.onMc f).tte = s.tte := rfl
@[simp] theorem State.onMc_ue : (s.onMc f).ue = s.ue := rfl
@[simp] theorem State.onMc_rg : (s.onMc f).rg = s.rg := rfl
@[simp] theorem State.onMc_mc : (s.onMc f).mc = f s.mc := rfl
@[simp] theorem State.onMc_cml : (s.onMc f).cml = s.cml := rfl
@[simp] theorem State.onMc_ss : (s.onMc f).ss = s.ss := rfl
@[simp] theorem State.onMc_hm : (s.onMc f).hm = s.hm := rfl
@[simp] theorem State.onMc_pending : (s.onMc f).pending = s.pending := rfl

end

section

variable (s : State) (f : Cml → Cml)

@[simp] theorem State.onCml_now : (s.onCml f).now = s.now := rfl
@[simp] theorem State.onCml_free : (s.onCml f).free = s.free := rfl
@[simp] theorem State.onCml_dram : (s.onCml f).dram = s.dram := rfl
@[simp] theorem State.onCml_cartridge : (s.onCml f).cartridge = s.cartridge := rfl
@[simp] theorem State.onCml_pins : (s.onCml f).pins = s.pins := rfl
@[simp] theorem State.onCml_bpu : (s.onCml f).bpu = s.bpu := rfl
@[simp] theorem State.onCml_ci : (s.onCml f).ci = s.ci := rfl
@[simp] theorem State.onCml_cw : (s.onCml f).cw = s.cw := rfl
@[simp] theorem State.onCml_pe : (s.onCml f).pe = s.pe := rfl
@[simp] theorem State.onCml_spm : (s.onCml f).spm = s.spm := rfl
@[simp] theorem State.onCml_tte : (s.onCml f).tte = s.tte := rfl
@[simp] theorem State.onCml_ue : (s.onCml f).ue = s.ue := rfl
@[simp] theorem State.onCml_rg : (s.onCml f).rg = s.rg := rfl
@[simp] theorem State.onCml_mc : (s.onCml f).mc = s.mc := rfl
@[simp] theorem State.onCml_cml : (s.onCml f).cml = f s.cml := rfl
@[simp] theorem State.onCml_ss : (s.onCml f).ss = s.ss := rfl
@[simp] theorem State.onCml_hm : (s.onCml f).hm = s.hm := rfl
@[simp] theorem State.onCml_pending : (s.onCml f).pending = s.pending := rfl

end

section

variable (s : State) (f : Ss → Ss)

@[simp] theorem State.onSs_now : (s.onSs f).now = s.now := rfl
@[simp] theorem State.onSs_free : (s.onSs f).free = s.free := rfl
@[simp] theorem State.onSs_dram : (s.onSs f).dram = s.dram := rfl
@[simp] theorem State.onSs_cartridge : (s.onSs f).cartridge = s.cartridge := rfl
@[simp] theorem State.onSs_pins : (s.onSs f).pins = s.pins := rfl
@[simp] theorem State.onSs_bpu : (s.onSs f).bpu = s.bpu := rfl
@[simp] theorem State.onSs_ci : (s.onSs f).ci = s.ci := rfl
@[simp] theorem State.onSs_cw : (s.onSs f).cw = s.cw := rfl
@[simp] theorem State.onSs_pe : (s.onSs f).pe = s.pe := rfl
@[simp] theorem State.onSs_spm : (s.onSs f).spm = s.spm := rfl
@[simp] theorem State.onSs_tte : (s.onSs f).tte = s.tte := rfl
@[simp] theorem State.onSs_ue : (s.onSs f).ue = s.ue := rfl
@[simp] theorem State.onSs_rg : (s.onSs f).rg = s.rg := rfl
@[simp] theorem State.onSs_mc : (s.onSs f).mc = s.mc := rfl
@[simp] theorem State.onSs_cml : (s.onSs f).cml = s.cml := rfl
@[simp] theorem State.onSs_ss : (s.onSs f).ss = f s.ss := rfl
@[simp] theorem State.onSs_hm : (s.onSs f).hm = s.hm := rfl
@[simp] theorem State.onSs_pending : (s.onSs f).pending = s.pending := rfl

end

section

variable (s : State) (f : Hm → Hm)

@[simp] theorem State.onHm_now : (s.onHm f).now = s.now := rfl
@[simp] theorem State.onHm_free : (s.onHm f).free = s.free := rfl
@[simp] theorem State.onHm_dram : (s.onHm f).dram = s.dram := rfl
@[simp] theorem State.onHm_cartridge : (s.onHm f).cartridge = s.cartridge := rfl
@[simp] theorem State.onHm_pins : (s.onHm f).pins = s.pins := rfl
@[simp] theorem State.onHm_bpu : (s.onHm f).bpu = s.bpu := rfl
@[simp] theorem State.onHm_ci : (s.onHm f).ci = s.ci := rfl
@[simp] theorem State.onHm_cw : (s.onHm f).cw = s.cw := rfl
@[simp] theorem State.onHm_pe : (s.onHm f).pe = s.pe := rfl
@[simp] theorem State.onHm_spm : (s.onHm f).spm = s.spm := rfl
@[simp] theorem State.onHm_tte : (s.onHm f).tte = s.tte := rfl
@[simp] theorem State.onHm_ue : (s.onHm f).ue = s.ue := rfl
@[simp] theorem State.onHm_rg : (s.onHm f).rg = s.rg := rfl
@[simp] theorem State.onHm_mc : (s.onHm f).mc = s.mc := rfl
@[simp] theorem State.onHm_cml : (s.onHm f).cml = s.cml := rfl
@[simp] theorem State.onHm_ss : (s.onHm f).ss = s.ss := rfl
@[simp] theorem State.onHm_hm : (s.onHm f).hm = f s.hm := rfl
@[simp] theorem State.onHm_pending : (s.onHm f).pending = s.pending := rfl

end

end Sys2Proof.Machine
end

