-- ==== Sys2Proof/Laws/Table.lean ====
section
/-! SUPPORT. The slot table and its direction (R17 to R19): what keeps them as they are, and which changes of a slot keep the
table fitting. -/

namespace Sys2Proof.Machine

/-! ### What leaves the Stripe Pool Manager as it is -/

@[simp] theorem State.askRing_spm (s : State) (r : RingReq) : (s.askRing r).spm = s.spm := rfl

@[simp] theorem State.tryRecord_spm (s : State) : s.tryRecord.spm = s.spm := by
  unfold State.tryRecord
  split <;> rfl

@[simp] theorem State.complete_spm (s : State) (id : Nat) (r : Result) (a b : Detail) : (s.complete id r a b).spm = s.spm := by
  unfold State.complete
  split
  · rfl
  · simp

@[simp] theorem State.completeBare_spm (s : State) (id : Nat) (r : Result) : (s.completeBare id r).spm = s.spm :=
  s.complete_spm id r _ _

@[simp] theorem State.note_spm (s : State) (k : NoteKind) (a b : Detail) : (s.note k a b).spm = s.spm := by
  unfold State.note
  split <;> simp

@[simp] theorem State.enterHealth_spm (s : State) (h : Health) (cause : Nat) : (s.enterHealth h cause).spm = s.spm := by
  unfold State.enterHealth
  dsimp only
  repeat' split
  all_goals simp

@[simp] theorem State.setIndex_spm (s : State) (ci cause : Nat) : (s.setIndex ci cause).spm = s.spm := by
  simp [State.setIndex]

@[simp] theorem State.score_spm (s : State) (verify needs : Bool) (counts : Option Counts) (stripe : Nat) :
    (s.score verify needs counts stripe).spm = s.spm := by
  simp [State.score]

@[simp] theorem State.sampleRate_spm (s : State) : s.sampleRate.spm = s.spm := rfl

theorem State.completeIntake_spm (r : Result) : ∀ (cs : List IntakeCmd) (s : State), (s.completeIntake cs r).spm = s.spm
  | [], _ => rfl
  | c :: cs, s => by
    show (State.completeIntake (s.complete c.id r _ _) cs r).spm = s.spm
    rw [State.completeIntake_spm r cs, State.complete_spm]

@[simp] theorem State.abortPack_spm (s : State) : s.abortPack.spm = s.spm := by
  unfold State.abortPack
  rw [State.completeIntake_spm, State.onPe_spm]

@[simp] theorem State.endDelivery_spm (s : State) (x : Nat × Nat) (r : Result) (residual : Option Nat) (stripe : Nat) :
    (s.endDelivery x r residual stripe).spm = s.spm := by
  unfold State.endDelivery
  split <;> simp

/-! ### What keeps the direction -/

@[simp] theorem State.setSlot_direction (s : State) (i : Nat) (f : Slot → Slot) :
    (s.setSlot i f).spm.direction = s.spm.direction := rfl

@[simp] theorem State.freeSlot_direction (s : State) (i : Nat) : (s.freeSlot i).spm.direction = s.spm.direction := rfl

@[simp] theorem State.freeAll_direction (s : State) (ok : Slot → Bool) : (s.freeAll ok).spm.direction = s.spm.direction := rfl

@[simp] theorem State.moveSlot_direction (s : State) (i : Nat) (old new : SlotState) (f : Slot → Slot) :
    (s.moveSlot i old new f).spm.direction = s.spm.direction := by
  unfold State.moveSlot
  split <;> rfl

@[simp] theorem State.triggerSeal_direction (s : State) : s.triggerSeal.spm.direction = s.spm.direction := by
  unfold State.triggerSeal State.withdrawBare
  dsimp only
  repeat' split
  all_goals rfl

@[simp] theorem State.abandonReception_direction (s : State) : s.abandonReception.spm.direction = s.spm.direction := by
  unfold State.abandonReception State.onRead
  split <;> rfl

@[simp] theorem State.abortDelivery_direction (s : State) : s.abortDelivery.spm.direction = s.spm.direction := by
  unfold State.abortDelivery
  split
  · rw [State.endDelivery_spm]
    split <;> rfl
  · rfl

/-! ### Tables that fit -/

/-- The moves of a slot between two states that the requests of R18 ask for. -/
abbrev slotMoves : List (SlotState × SlotState) :=
  [(.filling, .sealed), (.sealed, .writing), (.writing, .awaitVerify), (.writing, .sealed), (.awaitVerify, .verified),
    (.awaitVerify, .sealed), (.reading, .readDone), (.readDone, .delivering), (.delivering, .readDone), (.free, .filling),
    (.free, .reading), (.free, .readFailed)]

/-- What a request for a FREE slot gets (R18, R34): a FREE slot that is not kept, with none such below it. -/
theorem Spm.lowestFree_eq_some {m : Spm} {kept : Option Nat} {i : Nat} :
    m.lowestFree kept = some i ↔
      (m.slots[i]?).map (·.state) = some .free ∧ kept ≠ some i
        ∧ ∀ k < i, (m.slots[k]?).map (·.state) = some .free → kept = some k := by
  unfold Spm.lowestFree
  rw [List.findIdx?_eq_some_iff_getElem]
  simp only [List.length_zipIdx, List.getElem_zipIdx, Bool.and_eq_true, beq_iff_eq, bne_iff_ne, Nat.zero_add]
  constructor
  · rintro ⟨h, ⟨hf, hk⟩, hl⟩
    refine ⟨by simp [List.getElem?_eq_getElem h, hf], hk, fun k hki hkf => ?_⟩
    have := hl k hki
    rw [List.getElem?_eq_getElem (by omega)] at hkf
    simp only [Option.map_some, Option.some.injEq] at hkf
    by_contra hn
    exact this ⟨hkf, hn⟩
  · rintro ⟨hf, hk, hl⟩
    obtain ⟨x, hx, hs⟩ := Option.map_eq_some_iff.1 hf
    obtain ⟨h, he⟩ := List.getElem?_eq_some_iff.1 hx
    refine ⟨h, ⟨by rw [he, hs], hk⟩, fun k hki hc => hc.2 (hl k hki ?_)⟩
    rw [List.getElem?_eq_getElem (by omega)]
    simp [hc.1]

/-- With no slot kept, a request gets the lowest-indexed FREE slot (R18). -/
theorem Spm.lowestFree_none (m : Spm) : m.lowestFree none = m.firstIn .free := by
  unfold Spm.firstIn
  cases h : m.lowestFree none with
  | some i =>
    obtain ⟨hf, _, hl⟩ := Spm.lowestFree_eq_some.1 h
    obtain ⟨x, hx, hs⟩ := Option.map_eq_some_iff.1 hf
    obtain ⟨hi, he⟩ := List.getElem?_eq_some_iff.1 hx
    symm
    rw [List.findIdx?_eq_some_iff_getElem]
    refine ⟨hi, by simp [he, hs], fun k hk hc => ?_⟩
    have := hl k hk (by rw [List.getElem?_eq_getElem (by omega)]; simpa using hc)
    cases this
  | none =>
    symm
    unfold Spm.lowestFree at h
    rw [List.findIdx?_eq_none_iff] at h ⊢
    intro x hx
    obtain ⟨k, hk, he⟩ := List.getElem_of_mem hx
    have := h (x, k) (by rw [List.mem_zipIdx_iff_getElem?]; simp [List.getElem?_eq_getElem hk, he])
    simpa using this

/-- A table whose slots are all FREE fits any direction. -/
theorem Spm.fits_of_free {m : Spm} (h : ∀ x ∈ m.slots, x.state = .free) : m.Fits := by
  refine ⟨fun x hx => by rw [h x hx]; rfl, fun g hg => ?_⟩
  have h0 : m.count g = 0 := by
    unfold Spm.count
    rw [List.countP_eq_zero]
    intro x hx
    rw [h x hx]
    revert hg
    cases g <;> decide
  omega

/-- With direction NONE every slot is FREE (R19). -/
theorem Spm.Fits.free {m : Spm} (hm : m.Fits) (hd : m.direction = .none) : ∀ x ∈ m.slots, x.state = .free := by
  intro x hx
  have h := hm.1 x hx
  rw [hd] at h
  revert h
  cases x.state <;> decide

/-- In a write session every slot not in a write-side state is FREE (R19). -/
theorem Spm.Fits.write {m : Spm} (hm : m.Fits) (hd : m.direction ≠ .readOpen) (he : m.writeEmpty = true) :
    ∀ x ∈ m.slots, x.state = .free := by
  intro x hx
  have h := hm.1 x hx
  have h2 := List.all_eq_true.1 he x hx
  revert h h2 hd
  cases m.direction <;> cases x.state <;> decide

/-- In a read session every slot not in a read-side state is FREE (R19). -/
theorem Spm.Fits.read {m : Spm} (hm : m.Fits) (hd : m.direction = .readOpen) {x : Slot} (hx : x ∈ m.slots)
    (h2 : x.state.readSide = false) : x.state = .free := by
  have h := hm.1 x hx
  rw [hd] at h
  revert h h2
  cases x.state <;> decide

theorem mem_modify {α : Type} {f : α → α} : ∀ {l : List α} {i : Nat} {x : α}, x ∈ l.modify i f →
    x ∈ l ∨ ∃ y, l[i]? = some y ∧ x = f y
  | [], i, x, h => by cases i <;> simp at h
  | a :: l, 0, x, h => by
    rw [List.modify_zero_cons] at h
    rcases List.mem_cons.1 h with h | h
    · exact .inr ⟨a, rfl, h⟩
    · exact .inl (List.mem_cons_of_mem _ h)
  | a :: l, i + 1, x, h => by
    rw [List.modify_succ_cons] at h
    rcases List.mem_cons.1 h with h | h
    · exact .inl (h ▸ List.mem_cons_self)
    · rcases mem_modify h with h | ⟨y, hy, h⟩
      · exact .inl (List.mem_cons_of_mem _ h)
      · exact .inr ⟨y, by simpa using hy, h⟩

theorem countP_modify_le_succ {α : Type} {p : α → Bool} {f : α → α} :
    ∀ (l : List α) (i : Nat), (l.modify i f).countP p ≤ l.countP p + 1
  | [], i => by cases i <;> simp
  | a :: l, 0 => by
    rw [List.modify_zero_cons, List.countP_cons, List.countP_cons]
    split <;> omega
  | a :: l, i + 1 => by
    have := countP_modify_le_succ (p := p) (f := f) l i
    rw [List.modify_succ_cons, List.countP_cons, List.countP_cons]
    omega

theorem countP_modify_le {α : Type} {p : α → Bool} {f : α → α} (hf : ∀ x, p (f x) = true → p x = true) :
    ∀ (l : List α) (i : Nat), (l.modify i f).countP p ≤ l.countP p
  | [], i => by cases i <;> simp
  | a :: l, 0 => by
    rw [List.modify_zero_cons, List.countP_cons, List.countP_cons]
    split
    · next h => simp [hf a h]
    · omega
  | a :: l, i + 1 => by
    have := countP_modify_le hf l i
    rw [List.modify_succ_cons, List.countP_cons, List.countP_cons]
    omega

/-- Slots that keep their states, or become FREE, keep the table fitting. -/
theorem Spm.fits_map {m : Spm} (hm : m.Fits) {f : Slot → Slot} (hf : ∀ x, (f x).state = x.state ∨ (f x).state = .free) :
    Spm.Fits { m with slots := m.slots.map f } := by
  refine ⟨fun x hx => ?_, fun g hg => (Nat.le_trans ?_ (hm.2 g hg))⟩
  · obtain ⟨y, hy, rfl⟩ := List.mem_map.1 hx
    rcases hf y with h | h <;> rw [h]
    · exact hm.1 y hy
    · rfl
  · unfold Spm.count
    rw [List.countP_map]
    refine List.countP_mono_left fun x _ h => ?_
    rcases hf x with h2 | h2
    · simpa [h2] using h
    · simp only [Function.comp_apply, h2] at h
      revert hg h
      cases g <;> simp

/-- A slot that keeps its state, or becomes FREE, keeps the table fitting. -/
theorem Spm.fits_update {m : Spm} (hm : m.Fits) (i : Nat) {f : Slot → Slot}
    (hf : ∀ x, (f x).state = x.state ∨ (f x).state = .free) : (m.update i f).Fits := by
  refine ⟨fun x hx => ?_, fun g hg => (countP_modify_le (fun x h => ?_) _ _).trans (hm.2 g hg)⟩
  · rcases mem_modify hx with h | ⟨y, hy, rfl⟩
    · exact hm.1 x h
    · rcases hf y with h | h <;> rw [h]
      · exact hm.1 y (List.mem_of_getElem? hy)
      · rfl
  · rcases hf x with h2 | h2
    · simpa [h2] using h
    · rw [h2] at h
      revert hg h
      cases g <;> simp

/-- A slot that moves as a request of R18 asks keeps the table fitting. -/
theorem State.moveSlot_fits {s : State} (hm : s.spm.Fits) (i : Nat) {old new : SlotState} (f : Slot → Slot)
    (hg : (old, new) ∈ slotMoves) : (s.moveSlot i old new f).spm.Fits := by
  unfold State.moveSlot
  split
  · next h =>
    simp only [Bool.and_eq_true, Option.any_eq_true, beq_iff_eq] at h
    obtain ⟨⟨y, hy, hold⟩, hadm⟩ := h
    refine ⟨fun x hx => ?_, fun g hg2 => ?_⟩
    · rcases mem_modify hx with h | ⟨z, hz, rfl⟩
      · exact hm.1 x h
      · have hb := hm.1 y (List.mem_of_getElem? hy)
        rw [hold] at hb
        show new.belongs s.spm.direction = true
        revert hg hb hadm
        unfold Spm.admits
        cases old <;> cases new <;> simp +contextual [SlotState.belongs]
    · by_cases hn : new = g
      · subst hn
        have h0 : s.spm.firstIn new = none := by
          revert hadm hg2
          unfold Spm.admits
          cases new <;> simp +contextual
        have h0 : s.spm.count new = 0 := by
          unfold Spm.count
          rw [List.countP_eq_zero]
          intro x hx
          simpa using List.findIdx?_eq_none_iff.1 h0 x hx
        have := countP_modify_le_succ (p := fun x : Slot => x.state == new)
          (f := fun x => { f x with state := new }) s.spm.slots i
        exact this.trans (by rw [show s.spm.slots.countP (fun x => x.state == new) = 0 from h0])
      · refine (countP_modify_le (fun x h => ?_) _ _).trans (hm.2 g hg2)
        simp at h
        exact absurd h hn
  · exact hm

/-- Entering WRITE_FAILED from a write session, with the FILLING slot closed, keeps the table fitting (R17, R20). -/
theorem Spm.fits_failed {m : Spm} (hm : m.Fits) (hd : m.direction = .writeOpen) :
    Spm.Fits { m.closeFilling with direction := .writeFailed } := by
  have key : ∀ x ∈ m.slots, ∀ g ∈ [SlotState.filling, .writing, .awaitVerify, .reading, .delivering],
      (if x.state == .filling then { x with state := SlotState.sealed } else x).state = g → x.state = g := by
    intro x _ g hg
    by_cases h : x.state = .filling
    · simp only [h, beq_self_eq_true, if_true]
      revert hg
      cases g <;> simp
    · have : (x.state == SlotState.filling) = false := by simpa using h
      simp [this]
  refine ⟨fun x hx => ?_, fun g hg => (Nat.le_trans ?_ (hm.2 g hg))⟩
  · obtain ⟨y, hy, rfl⟩ := List.mem_map.1 hx
    have hb := hm.1 y hy
    rw [hd] at hb
    dsimp only
    revert hb
    cases h : y.state <;> simp [SlotState.belongs, h]
  · show List.countP _ (m.slots.map _) ≤ _
    rw [List.countP_map]
    refine List.countP_mono_left fun x hx h => ?_
    simp only [Function.comp_apply, beq_iff_eq] at h ⊢
    exact key x hx g hg (by simpa using h)

end Sys2Proof.Machine
end

