-- ==== Sys2Proof/Laws/Kept.lean ====
section
/-! SUPPORT. Every operation keeps the invariant of Safety.lean: one lemma each. -/

namespace Sys2Proof.Machine

/-! ### Updates of one block -/

@[simp] theorem inv_onPins {s : State} (f : Pins → Pins) : (s.onPins f).Inv ↔ s.Inv := Iff.rfl
@[simp] theorem inv_onBpu {s : State} (f : Bpu → Bpu) : (s.onBpu f).Inv ↔ s.Inv := Iff.rfl
@[simp] theorem inv_onCw {s : State} (f : Cw → Cw) : (s.onCw f).Inv ↔ s.Inv := Iff.rfl
@[simp] theorem inv_onPe {s : State} (f : Pe → Pe) : (s.onPe f).Inv ↔ s.Inv := Iff.rfl
@[simp] theorem inv_onTte {s : State} (f : Tte → Tte) : (s.onTte f).Inv ↔ s.Inv := Iff.rfl
@[simp] theorem inv_onUe {s : State} (f : Ue → Ue) : (s.onUe f).Inv ↔ s.Inv := Iff.rfl
@[simp] theorem inv_onMc {s : State} (f : Mc → Mc) : (s.onMc f).Inv ↔ s.Inv := Iff.rfl
@[simp] theorem inv_onCml {s : State} (f : Cml → Cml) : (s.onCml f).Inv ↔ s.Inv := Iff.rfl
@[simp] theorem inv_onSs {s : State} (f : Ss → Ss) : (s.onSs f).Inv ↔ s.Inv := Iff.rfl
@[simp] theorem inv_free {s : State} (n : Nat) : ({ s with free := n } : State).Inv ↔ s.Inv := Iff.rfl
@[simp] theorem inv_now {s : State} (n : Nat) : ({ s with now := n } : State).Inv ↔ s.Inv := Iff.rfl
@[simp] theorem inv_pending {s : State} (q : List Instr) : ({ s with pending := q } : State).Inv ↔ s.Inv := Iff.rfl

@[simp] theorem inv_onSpm {s : State} (f : Spm → Spm) (hi : s.Inv)
    (hl : ∀ m, (f m).slots = m.slots) (hd : ∀ m, (f m).direction = m.direction) : (s.onSpm f).Inv := by
  refine ⟨hi.1, hi.2.1, hi.2.2.1, hi.2.2.2.1, hi.2.2.2.2.1, ?_, ?_⟩
  · rw [State.onSpm_spm, hl]; exact hi.2.2.2.2.2.1
  · have := hi.2.2.2.2.2.2
    unfold Spm.Fits Spm.count at this ⊢
    rw [State.onSpm_spm, hl, hd]
    exact this

/-- A new slot table, or a new direction, that fits. -/
theorem inv_table {s : State} (f : Spm → Spm) (hi : s.Inv) (hl : (f s.spm).slots.length ≤ 384) (hf : (f s.spm).Fits) :
    (s.onSpm f).Inv :=
  ⟨hi.1, hi.2.1, hi.2.2.1, hi.2.2.2.1, hi.2.2.2.2.1, hl, hf⟩

@[simp] theorem inv_onRg {s : State} (f : Rg → Rg) (hi : s.Inv) (hl : ∀ r, (f r).level ≤ r.level) : (s.onRg f).Inv :=
  ⟨hi.1, hi.2.1, hi.2.2.1, (hl s.rg).trans hi.2.2.2.1, hi.2.2.2.2⟩

@[simp] theorem inv_onHm {s : State} (f : Hm → Hm) (hi : s.Inv) (hh : ∀ h, (f h).health = h.health)
    (hc : ∀ h, (f h).ci ≤ h.ci) : (s.onHm f).Inv := by
  refine ⟨hi.1, hi.2.1, hi.2.2.1, ?_, (hc s.hm).trans hi.2.2.2.2.1, hi.2.2.2.2.2⟩
  have := hi.2.2.2.1
  simp only [State.LevelOk, Hm.cap, State.onHm_rg, State.onHm_hm, hh] at this ⊢
  exact this

@[simp] theorem inv_onCi {s : State} (f : Ci → Ci) (hi : s.Inv) (hn : ∀ c, c.Numbered → (f c).Numbered)
    (hl : ∀ c, (f c).outstanding.length ≤ c.outstanding.length) : (s.onCi f).Inv :=
  ⟨hi.1, hn _ hi.2.1, (hl s.ci).trans hi.2.2.1, hi.2.2.2⟩

@[simp] theorem inv_writeBytes {s : State} (a : Nat) (bs : List Byte) (hi : s.Inv) :
    (s.onDram fun m => Memory.writeBytes m a bs).Inv :=
  ⟨⟨Memory.wf_writeBytes bs a hi.1.1, hi.1.2⟩, hi.2⟩

@[simp] theorem inv_writeMarked {s : State} (a : Nat) (bs : List (Option Byte)) (hi : s.Inv) :
    (s.onDram fun m => Memory.writeMarked m a bs).Inv :=
  ⟨⟨Memory.wf_writeMarked bs a hi.1.1, hi.1.2⟩, hi.2⟩

@[simp] theorem inv_writePage {s : State} (a : Nat) (bs : List Byte) (hi : s.Inv) :
    (s.onCartridge fun m => Memory.writeBytes m a bs).Inv :=
  ⟨⟨hi.1.1, Memory.wf_writeBytes bs a hi.1.2⟩, hi.2⟩

/-! ### Updates inside a block -/

@[simp] theorem Spm.update_length (m : Spm) (i : Nat) (f : Slot → Slot) : (m.update i f).slots.length = m.slots.length := by
  simp [Spm.update]

@[simp] theorem Spm.restart_slots (m : Spm) : m.restart.slots = m.slots := rfl
@[simp] theorem Rg.leave_level (r : Rg) : r.leave.level = r.level := rfl
@[simp] theorem Rg.startRun_level (r : Rg) : r.startRun.level ≤ r.level := by
  unfold Rg.startRun
  dsimp only
  repeat' split
  all_goals first | exact le_refl _ | exact Nat.sub_le _ _

@[simp] theorem Rg.await_level (r : Rg) (kind : StopKind) (ask : ReadAsk) : (r.await kind ask).level = r.level := rfl

theorem inv_foldl {α : Type} {g : State → α → State} (h : ∀ s a, s.Inv → (g s a).Inv) :
    ∀ (l : List α) {s : State}, s.Inv → (l.foldl g s).Inv
  | [], _, hi => hi
  | a :: l, _, hi => inv_foldl h l (h _ a hi)

theorem getD_inv {o : Option State} {d : State} (h : ∀ t, o = some t → t.Inv) (hd : d.Inv) : (o.getD d).Inv := by
  cases o with
  | none => exact hd
  | some t => exact h t rfl

@[simp] theorem inv_leave {s : State} (hi : s.Inv) : (s.onRg Rg.leave).Inv := inv_onRg _ hi fun _ => le_refl _
@[simp] theorem inv_startRun {s : State} (hi : s.Inv) : (s.onRg Rg.startRun).Inv := inv_onRg _ hi Rg.startRun_level
@[simp] theorem inv_await {s : State} (kind : StopKind) (ask : ReadAsk) (hi : s.Inv) :
    (s.onRg fun r => r.await kind ask).Inv := inv_onRg _ hi fun _ => le_refl _
@[simp] theorem Spm.closeFilling_length (m : Spm) : m.closeFilling.slots.length = m.slots.length := by
  simp [Spm.closeFilling]
@[simp] theorem inv_restart {s : State} (hi : s.Inv) : (s.onSpm Spm.restart).Inv :=
  inv_onSpm _ hi (fun _ => rfl) fun _ => rfl

theorem baseTarget_le (n : Nat) : baseTarget n ≤ 5 := by
  unfold baseTarget
  repeat' split
  all_goals omega

/-- The target never exceeds the cap (R107, R109). -/
theorem targetLevel_le (f : Nat) (d : Direction) (n s free cap : Nat) : targetLevel f d n s free cap ≤ cap :=
  Nat.min_le_right _ _

theorem Rg.follow_le {r : Rg} {t cap : Nat} (hr : r.level ≤ cap) (ht : t ≤ cap) : (r.follow t).level ≤ cap := by
  unfold Rg.follow
  repeat' split
  all_goals first | exact hr | exact ht

/-! ### Ops -/

@[simp] theorem State.answer_inv (s : State) (who : Initiator) (okay : Bool) (bytes : List Byte) (hi : State.Inv s) :
    (State.answer s who okay bytes).Inv := by
  unfold State.answer
  try dsimp only
  repeat' split
  all_goals simp (maxDischargeDepth := 30) [hi]

@[simp] theorem State.answerError_inv (s : State) (a : Access) (hi : State.Inv s) :
    (State.answerError s a).Inv := by
  unfold State.answerError
  try dsimp only
  repeat' split
  all_goals simp (maxDischargeDepth := 30) [hi]

@[simp] theorem State.askRing_inv (s : State) (r : RingReq) (hi : State.Inv s) :
    (State.askRing s r).Inv := by
  unfold State.askRing
  try dsimp only
  all_goals simp (maxDischargeDepth := 30) [hi]

@[simp] theorem State.askStatus_inv (s : State) (hi : State.Inv s) :
    (State.askStatus s).Inv := by
  unfold State.askStatus
  try dsimp only
  repeat' split
  all_goals simp (maxDischargeDepth := 30) [hi]

@[simp] theorem State.noticeStatus_inv (s : State) (hi : State.Inv s) :
    (State.noticeStatus s).Inv := by
  unfold State.noticeStatus
  try dsimp only
  repeat' split
  all_goals simp (maxDischargeDepth := 30) [hi]

@[simp] theorem State.judgeAttn_inv (s : State) (hi : State.Inv s) :
    (State.judgeAttn s).Inv := by
  unfold State.judgeAttn
  try dsimp only
  all_goals simp (maxDischargeDepth := 30) [hi]

@[simp] theorem State.tryRecord_inv (s : State) (hi : State.Inv s) :
    (State.tryRecord s).Inv := by
  unfold State.tryRecord
  try dsimp only
  repeat' split
  all_goals simp (maxDischargeDepth := 30) [hi]

@[simp] theorem State.complete_inv (s : State) (id : Nat) (r : Result) (a b : Detail) (hi : s.Inv) :
    (s.complete id r a b).Inv := by
  unfold State.complete
  split
  · exact hi
  · refine State.tryRecord_inv _ ((inv_onCw _).2 (inv_onCi _ hi ?_ ?_))
    · rintro c ⟨h1, h2, h3, h4, h5⟩
      refine ⟨fun t ht => ?_, ?_, ?_, ?_, ?_⟩
      · obtain ⟨u, hu, rfl⟩ := List.mem_map.1 ht
        have := h1 u hu
        split <;> exact this
      all_goals intro k hk
      · exact h2 k (List.mem_of_mem_filter hk)
      · exact h3 k (List.mem_of_mem_filter hk)
      · exact h4 k (List.mem_of_mem_filter hk)
      · exact h5 k (List.mem_of_mem_filter hk)
    · intro c
      simp


@[simp] theorem State.completeBare_inv (s : State) (id : Nat) (r : Result) (hi : State.Inv s) :
    (State.completeBare s id r).Inv := by
  unfold State.completeBare
  try dsimp only
  all_goals simp (maxDischargeDepth := 30) [hi]

@[simp] theorem State.note_inv (s : State) (k : NoteKind) (a b : Detail) (hi : State.Inv s) :
    (State.note s k a b).Inv := by
  unfold State.note
  try dsimp only
  repeat' split
  all_goals simp (maxDischargeDepth := 30) [hi]

@[simp] theorem State.setStage_inv (s : State) (id : Nat) (g : Stage) (hi : s.Inv) : (s.setStage id g).Inv := by
  refine inv_onCi _ hi ?_ (fun c => by simp)
  rintro c ⟨h1, h2⟩
  refine ⟨fun t ht => ?_, h2⟩
  obtain ⟨u, hu, rfl⟩ := List.mem_map.1 ht
  have := h1 u hu
  split <;> exact this


theorem Hm.cap_ge (h : Hm) : 3 ≤ h.cap := by
  unfold Hm.cap
  split <;> omega

theorem State.Inv.level_le {s : State} (hi : s.Inv) : s.rg.level ≤ 5 := by
  have := hi.2.2.2.1
  simp only [State.LevelOk, Hm.cap] at this
  split at this <;> omega

/-- All of the invariant but the level's cap, with the level at most 5. -/
def State.Mid (s : State) : Prop :=
  s.MemoryOk ∧ s.ci.Numbered ∧ s.ci.outstanding.length ≤ Config.maxOutstanding ∧ s.rg.level ≤ 5 ∧ s.hm.ci ≤ 1000
    ∧ s.spm.slots.length ≤ 384 ∧ s.spm.Fits

theorem State.Mid.inv {s : State} (h : s.Mid) (hh : s.hm.health ≠ .cleanRequired) : s.Inv := by
  refine ⟨h.1, h.2.1, h.2.2.1, ?_, h.2.2.2.2⟩
  simp only [State.LevelOk, Hm.cap, if_neg hh]
  exact h.2.2.2.1

theorem State.Inv.mid {s : State} (hi : s.Inv) : s.Mid := ⟨hi.1, hi.2.1, hi.2.2.1, hi.level_le, hi.2.2.2.2⟩

theorem State.note_mid (s : State) (k : NoteKind) (a b : Detail) (h : s.Mid) : (s.note k a b).Mid := by
  unfold State.note State.tryRecord
  repeat' split
  all_goals exact h

theorem State.note_hm (s : State) (k : NoteKind) (a b : Detail) : (s.note k a b).hm = s.hm := by
  unfold State.note State.tryRecord
  repeat' split
  all_goals rfl

theorem State.enterHealth_mid (s : State) (h : Health) (cause : Nat) (hm : s.Mid)
    (hh : h = s.hm.health → s.LevelOk) : (s.enterHealth h cause).Inv := by
  unfold State.enterHealth
  split
  · exact ⟨hm.1, hm.2.1, hm.2.2.1, hh ‹_›, hm.2.2.2.2⟩
  · dsimp only
    have h1 : (s.onHm fun m => { m with health := h }).Mid := hm
    split
    · rename_i hr
      subst hr
      have h2 := State.note_mid _ .cleaningRequest
        (dv 2 (s.onHm fun m => { m with health := .cleanRequired }).hm.ci ++ dv 1 Health.cleanRequired.code
          ++ dv 1 cause ++ du 4)
        (dv 4 (((s.onHm fun m => { m with health := .cleanRequired }).hm.last.map (·.stripe)).getD Config.absent32)
          ++ du 4) h1
      refine ⟨h2.1, h2.2.1, h2.2.2.1, ?_, h2.2.2.2.2⟩
      exact (Nat.min_le_right _ _).trans (Hm.cap_ge _)
    · rename_i hr
      split
      · exact State.Mid.inv h1 hr
      · exact State.Mid.inv (State.note_mid _ _ _ _ h1) (by rw [State.onPins_hm, State.note_hm]; exact hr)

@[simp] theorem State.enterHealth_inv (s : State) (h : Health) (cause : Nat) (hi : s.Inv) :
    (s.enterHealth h cause).Inv := State.enterHealth_mid s h cause hi.mid fun _ => hi.2.2.2.1


theorem inv_index {s : State} (f : Hm → Hm) (hi : s.Inv) (hh : ∀ h, (f h).health = h.health)
    (hc : ∀ h, (f h).ci ≤ 1000) : (s.onHm f).Inv := by
  refine ⟨hi.1, hi.2.1, hi.2.2.1, ?_, hc _, hi.2.2.2.2.2⟩
  have := hi.2.2.2.1
  simp only [State.LevelOk, Hm.cap, State.onHm_rg, State.onHm_hm, hh] at this ⊢
  exact this

@[simp] theorem State.setIndex_inv (s : State) (ci cause : Nat) (hi : s.Inv) : (s.setIndex ci cause).Inv :=
  State.enterHealth_inv _ _ _ (inv_index _ hi (fun _ => rfl) fun _ => Nat.min_le_right _ _)


@[simp] theorem State.score_inv (s : State) (verify needs : Bool) (counts : Option Counts) (stripe : Nat) (hi : State.Inv s) :
    (State.score s verify needs counts stripe).Inv := by
  unfold State.score
  try dsimp only
  all_goals simp (maxDischargeDepth := 30) [hi]

@[simp] theorem State.markWear_inv (s : State) (hi : s.Inv) : (s.markWear).Inv :=
  inv_onHm _ hi (fun h => by split <;> rfl) fun h => by split <;> exact le_refl _


@[simp] theorem State.sampleRate_inv (s : State) (hi : s.Inv) : (s.sampleRate).Inv :=
  inv_onRg _ hi fun r => by split <;> exact le_refl _


@[simp] theorem State.openRate_inv (s : State) (hi : State.Inv s) :
    (State.openRate s).Inv := by
  unfold State.openRate
  try dsimp only
  all_goals simp (maxDischargeDepth := 30) [hi]

/-! ### Directory -/

@[simp] theorem State.applyStripe_inv (s : State) (x : StripeDone) (hi : State.Inv s) :
    (State.applyStripe s x).Inv := by
  unfold State.applyStripe
  try dsimp only
  all_goals simp (maxDischargeDepth := 30) [hi]

@[simp] theorem State.truncateDirectory_inv (s : State) (stripe record : Nat) (w : TapePos) (hi : State.Inv s) :
    (State.truncateDirectory s stripe record w).Inv := by
  unfold State.truncateDirectory
  try dsimp only
  all_goals simp (maxDischargeDepth := 30) [hi]

@[simp] theorem State.rebuildDirectory_inv (s : State) (hi : State.Inv s) :
    (State.rebuildDirectory s).Inv := by
  unfold State.rebuildDirectory
  try dsimp only
  all_goals simp (maxDischargeDepth := 30) [hi]

@[simp] theorem State.recoverDirectory_inv (s : State) (highest : Nat) (hi : State.Inv s) :
    (State.recoverDirectory s highest).Inv := by
  unfold State.recoverDirectory
  try dsimp only
  all_goals simp (maxDischargeDepth := 30) [hi]

@[simp] theorem State.positionAtEnd_inv (s : State) (hi : State.Inv s) :
    (State.positionAtEnd s).Inv := by
  unfold State.positionAtEnd
  try dsimp only
  repeat' split
  all_goals simp (maxDischargeDepth := 30) [hi]

/-! ### Pool -/

@[simp] theorem State.setSlot_inv (s : State) (i : Nat) (f : Slot → Slot) (hi : State.Inv s)
    (hf : ∀ x, (f x).state = x.state ∨ (f x).state = .free) : (State.setSlot s i f).Inv :=
  inv_table _ hi (by rw [Spm.update_length]; exact hi.2.2.2.2.2.1) (Spm.fits_update hi.2.2.2.2.2.2 i hf)

@[simp] theorem State.freeSlot_inv (s : State) (i : Nat) (hi : State.Inv s) : (State.freeSlot s i).Inv :=
  State.setSlot_inv s i _ hi fun _ => .inr rfl

@[simp] theorem State.freeAll_inv (s : State) (ok : Slot → Bool) (hi : State.Inv s) : (State.freeAll s ok).Inv :=
  inv_table _ hi (by rw [List.length_map]; exact hi.2.2.2.2.2.1)
    (Spm.fits_map hi.2.2.2.2.2.2 fun x => by split; exacts [.inr rfl, .inl rfl])

@[simp] theorem State.moveSlot_inv (s : State) (i : Nat) (old new : SlotState) (f : Slot → Slot) (hi : State.Inv s)
    (hg : (old, new) ∈ slotMoves) : (s.moveSlot i old new f).Inv := by
  have hf := State.moveSlot_fits hi.2.2.2.2.2.2 i f hg
  revert hf
  unfold State.moveSlot
  split
  · intro hf
    exact inv_table _ hi (by rw [Spm.update_length]; exact hi.2.2.2.2.2.1) hf
  · intro _
    exact hi

@[simp] theorem State.withdrawBare_inv (s : State) (i : Nat) (hi : State.Inv s) :
    (State.withdrawBare s i).Inv := by
  unfold State.withdrawBare
  try dsimp only
  repeat' split
  all_goals simp (maxDischargeDepth := 30) [hi]

@[simp] theorem State.triggerSeal_inv (s : State) (hi : State.Inv s) :
    (State.triggerSeal s).Inv := by
  unfold State.triggerSeal
  try dsimp only
  repeat' split
  all_goals simp (maxDischargeDepth := 30) [hi]

@[simp] theorem State.sealDone_inv (s : State) (i : Nat) (hi : State.Inv s) :
    (State.sealDone s i).Inv := by
  unfold State.sealDone
  try dsimp only
  repeat' split
  all_goals simp (maxDischargeDepth := 30) [hi]

@[simp] theorem State.completeIntake_inv (s : State) (cs : List IntakeCmd) (r : Result) (hi : s.Inv) :
    (s.completeIntake cs r).Inv := inv_foldl (fun s c h => State.complete_inv s c.id r _ _ h) cs hi


@[simp] theorem State.abortPack_inv (s : State) (hi : State.Inv s) :
    (State.abortPack s).Inv := by
  unfold State.abortPack
  try dsimp only
  all_goals simp (maxDischargeDepth := 30) [hi]

/-- WRITE_FAILED is entered from WRITE_OPEN only (R19). -/
@[simp] theorem State.enterWriteFailed_inv (s : State) (cause : Cause) (hi : State.Inv s) (hd : s.spm.direction = .writeOpen) :
    (State.enterWriteFailed s cause).Inv := by
  unfold State.enterWriteFailed
  dsimp only
  refine State.completeIntake_inv _ _ _ ((inv_onPe _).2 (inv_leave ((inv_onTte _).2 ?_)))
  have h1 := State.triggerSeal_inv s hi
  have key : ∀ u : State, u.Inv → u.spm.direction = .writeOpen →
      (u.onSpm fun m => { m.closeFilling with direction := .writeFailed }).Inv := fun u hu hd =>
    inv_table _ hu (by rw [show Spm.slots { u.spm.closeFilling with direction := .writeFailed } = u.spm.closeFilling.slots from rfl,
      Spm.closeFilling_length]; exact hu.2.2.2.2.2.1) (Spm.fits_failed hu.2.2.2.2.2.2 hd)
  split
  · exact key _ (State.sampleRate_inv _ h1) (by rw [State.sampleRate_spm, State.triggerSeal_direction, hd])
  · exact key _ h1 (by rw [State.triggerSeal_direction, hd])

/-- The write side is left with every slot FREE (R19). -/
@[simp] theorem State.leaveWrite_inv (s : State) (hi : State.Inv s) (hf : ∀ x ∈ s.spm.slots, x.state = .free) :
    (State.leaveWrite s).Inv := by
  unfold State.leaveWrite
  dsimp only
  exact State.positionAtEnd_inv _ (inv_leave ((inv_onTte _).2 (inv_table _ hi hi.2.2.2.2.2.1 (Spm.fits_of_free hf))))

@[simp] theorem State.freeVerified_inv : ∀ (n : Nat) (s : State), s.Inv → (State.freeVerified n s).Inv
  | 0, _, hi => hi
  | n + 1, s, hi => by
    unfold State.freeVerified
    dsimp only
    repeat' split
    all_goals first | exact hi | exact State.freeVerified_inv n _ (by simp (maxDischargeDepth := 30) [hi])


@[simp] theorem State.sweepDropped_inv (s : State) (hi : State.Inv s) :
    (State.sweepDropped s).Inv := by
  unfold State.sweepDropped
  try dsimp only
  repeat' split
  all_goals simp (maxDischargeDepth := 30) [hi]

@[simp] theorem State.freeRun_inv (s : State) (hi : State.Inv s) :
    (State.freeRun s).Inv := by
  unfold State.freeRun
  try dsimp only
  all_goals simp (maxDischargeDepth := 30) [hi]

@[simp] theorem State.clearWrite_inv (s : State) (hi : State.Inv s) :
    (State.clearWrite s).Inv := by
  unfold State.clearWrite
  try dsimp only
  all_goals simp (maxDischargeDepth := 30) [hi]

/-! ### Pack -/

@[simp] theorem State.beginEntry_inv (s : State) (i : Nat) (hi : State.Inv s) :
    (State.beginEntry s i).Inv := by
  unfold State.beginEntry
  try dsimp only
  all_goals simp (maxDischargeDepth := 30) [hi]

@[simp] theorem State.tryBegin_inv (s : State) (hi : State.Inv s) :
    (State.tryBegin s).Inv := by
  unfold State.tryBegin
  try dsimp only
  repeat' split
  all_goals simp (maxDischargeDepth := 30) [hi]

@[simp] theorem State.takeFilling_inv (s : State) (i : Nat) (hi : State.Inv s) :
    (State.takeFilling s i).Inv := by
  unfold State.takeFilling
  try dsimp only
  all_goals simp (maxDischargeDepth := 30) [hi]

@[simp] theorem State.endCommand_inv (s : State) (c : IntakeCmd) (hi : State.Inv s) :
    (State.endCommand s c).Inv := by
  unfold State.endCommand
  try dsimp only
  repeat' split
  all_goals simp (maxDischargeDepth := 30) [hi]

@[simp] theorem State.itemDone_inv (s : State) (hi : State.Inv s) :
    (State.itemDone s).Inv := by
  unfold State.itemDone
  try dsimp only
  repeat' split
  all_goals simp (maxDischargeDepth := 30) [hi]

@[simp] theorem State.placeBytes_inv (s : State) (i : Nat) (hi : State.Inv s) :
    (State.placeBytes s i).Inv := by
  unfold State.placeBytes
  try dsimp only
  repeat' split
  all_goals simp (maxDischargeDepth := 30) [hi]

@[simp] theorem State.placeEntry_inv (s : State) (i : Nat) (hi : State.Inv s) :
    (State.placeEntry s i).Inv := by
  unfold State.placeEntry
  try dsimp only
  all_goals simp (maxDischargeDepth := 30) [hi]

@[simp] theorem State.sealStep_inv (s : State) (j : SealJob) (hi : State.Inv s) :
    (State.sealStep s j).Inv := by
  unfold State.sealStep
  try dsimp only
  repeat' split
  all_goals simp (maxDischargeDepth := 30) [hi]

@[simp] theorem State.doPackWork_inv (s : State) (z : PackWork) (hi : State.Inv s) :
    (State.doPackWork s z).Inv := by
  unfold State.doPackWork
  try dsimp only
  repeat' split
  all_goals simp (maxDischargeDepth := 30) [hi]

@[simp] theorem State.reposition_inv (s : State) (hi : State.Inv s) :
    (State.reposition s).Inv := by
  unfold State.reposition
  try dsimp only
  all_goals simp (maxDischargeDepth := 30) [hi]

/-! ### Move -/

@[simp] theorem State.evaluate_inv (s : State) (hi : s.Inv) : (s.evaluate).Inv :=
  ⟨hi.1, hi.2.1, hi.2.2.1, Rg.follow_le hi.2.2.2.1 (targetLevel_le _ _ _ _ _ _), hi.2.2.2.2⟩


/-! ### Transfer -/

@[simp] theorem State.judgeGood_inv (s : State) (i : Nat) (c : Counts) (hi : State.Inv s) :
    (State.judgeGood s i c).Inv := by
  unfold State.judgeGood
  try dsimp only
  all_goals simp (maxDischargeDepth := 30) [hi]

@[simp] theorem State.raiseIndex_inv (s : State) (hi : State.Inv s) :
    (State.raiseIndex s).Inv := by
  unfold State.raiseIndex
  try dsimp only
  all_goals simp (maxDischargeDepth := 30) [hi]

@[simp] theorem State.permanentFailure_inv (s : State) (i : Nat) (c : Option Counts) (hi : State.Inv s)
    (hd : s.spm.direction = .writeOpen) : (State.permanentFailure s i c).Inv := by
  unfold State.permanentFailure
  try dsimp only
  repeat' split
  all_goals simp (maxDischargeDepth := 30) [hi, hd]

@[simp] theorem State.dropSlot_inv (s : State) (i : Nat) (hi : State.Inv s) :
    (State.dropSlot s i).Inv := by
  unfold State.dropSlot
  try dsimp only
  all_goals simp (maxDischargeDepth := 30) [hi]

@[simp] theorem State.judgeFailed_inv (s : State) (i : Nat) (c : Option Counts) (hi : State.Inv s) :
    (State.judgeFailed s i c).Inv := by
  unfold State.judgeFailed
  try dsimp only
  repeat' split
  all_goals simp_all (maxDischargeDepth := 30)

@[simp] theorem State.deadline_inv (s : State) (hi : State.Inv s) :
    (State.deadline s).Inv := by
  unfold State.deadline
  try dsimp only
  repeat' split
  all_goals simp (maxDischargeDepth := 30) [hi]

@[simp] theorem State.stampSlot_inv (s : State) (i : Nat) (p : TapePos) (hi : State.Inv s) :
    (State.stampSlot s i p).Inv := by
  unfold State.stampSlot
  try dsimp only
  all_goals simp (maxDischargeDepth := 30) [hi]

@[simp] theorem State.armHead_inv (s : State) (i : Nat) (p : TapePos) (hi : State.Inv s) :
    (State.armHead s i p).Inv := by
  unfold State.armHead
  try dsimp only
  all_goals simp (maxDischargeDepth := 30) [hi]

@[simp] theorem State.mediaEnd_inv (s : State) (hi : State.Inv s) (hd : s.spm.direction = .writeOpen) :
    (State.mediaEnd s).Inv := State.enterWriteFailed_inv s .mediaEnd hi hd

@[simp] theorem State.runOnNow_inv (s : State) (marks : Nat) (hi : State.Inv s) :
    (State.runOnNow s marks).Inv := by
  unfold State.runOnNow
  try dsimp only
  all_goals simp (maxDischargeDepth := 30) [hi]

@[simp] theorem State.runOver_inv (s : State) (marks : Nat) (hi : State.Inv s) :
    (State.runOver s marks).Inv := by
  unfold State.runOver
  try dsimp only
  all_goals simp (maxDischargeDepth := 30) [hi]

@[simp] theorem State.turnWriting_inv (s : State) (hi : State.Inv s) :
    (State.turnWriting s).Inv := by
  unfold State.turnWriting
  try dsimp only
  repeat' split
  all_goals simp (maxDischargeDepth := 30) [hi]

@[simp] theorem State.writeTurn_inv (s : State) (p : TapePos) (hi : State.Inv s) :
    (State.writeTurn s p).Inv := by
  unfold State.writeTurn
  try dsimp only
  all_goals simp (maxDischargeDepth := 30) [hi]

@[simp] theorem State.returnInFlight_inv (s : State) (hi : State.Inv s) :
    (State.returnInFlight s).Inv := by
  unfold State.returnInFlight
  try dsimp only
  repeat' split
  all_goals simp (maxDischargeDepth := 30) [hi]

@[simp] theorem State.channelEnd_inv (s : State) (hi : State.Inv s) :
    (State.channelEnd s).Inv := by
  unfold State.channelEnd
  try dsimp only
  repeat' split
  all_goals simp (maxDischargeDepth := 30) [hi]

@[simp] theorem State.cutWriting_inv (s : State) (hi : State.Inv s) :
    (State.cutWriting s).Inv := by
  unfold State.cutWriting
  try dsimp only
  all_goals simp (maxDischargeDepth := 30) [hi]

@[simp] theorem State.startTransfer_inv (s : State) (f : InFlight) (hi : State.Inv s) :
    (State.startTransfer s f).Inv := by
  unfold State.startTransfer
  try dsimp only
  repeat' split
  all_goals simp (maxDischargeDepth := 30) [hi]

@[simp] theorem State.countEnd_inv (s : State) (f : InFlight) (hi : State.Inv s) :
    (State.countEnd s f).Inv := by
  unfold State.countEnd
  try dsimp only
  all_goals simp (maxDischargeDepth := 30) [hi]

@[simp] theorem State.endRunOn_inv (s : State) (hi : State.Inv s) :
    (State.endRunOn s).Inv := by
  unfold State.endRunOn
  try dsimp only
  repeat' split
  all_goals simp (maxDischargeDepth := 30) [hi]

/-- With direction NONE any direction fits the table (R19). -/
theorem inv_open {s : State} (f : Spm → Spm) (hi : s.Inv) (hd : s.spm.direction = .none) (hl : ∀ m, (f m).slots = m.slots) :
    (s.onSpm f).Inv :=
  inv_table _ hi (by rw [hl]; exact hi.2.2.2.2.2.1) (Spm.fits_of_free (by rw [hl]; exact hi.2.2.2.2.2.2.free hd))

@[simp] theorem State.truncateDirectory_spm (s : State) (stripe record : Nat) (w : TapePos) :
    (s.truncateDirectory stripe record w).spm = s.spm := rfl

@[simp] theorem State.openSession_inv (s : State) (id : Nat) (hi : State.Inv s) (hd : s.spm.direction = .none) :
    (State.openSession s id).Inv := by
  unfold State.openSession
  split
  · exact hi
  · exact State.complete_inv _ _ _ _ _ (State.openRate_inv _ ((inv_onPe _).2 (inv_open _ ((inv_onTte _).2
      (State.truncateDirectory_inv _ _ _ _ hi)) hd fun _ => rfl)))

/-- A write session opens from direction NONE only (R62). -/
theorem State.openWriteCheck_none {s : State} (h : s.openWriteCheck = none) : s.spm.direction = .none := by
  unfold State.openWriteCheck at h
  repeat' split at h
  all_goals simp_all

/-- A read session opens from direction NONE only (R84). -/
theorem State.openReadCheck_none {s : State} (h : s.openReadCheck = none) : s.spm.direction = .none := by
  unfold State.openReadCheck at h
  repeat' split at h
  all_goals simp_all

@[simp] theorem State.abortWrite_inv (s : State) (hi : State.Inv s) :
    (State.abortWrite s).Inv := by
  unfold State.abortWrite
  try dsimp only
  repeat' split
  all_goals simp (maxDischargeDepth := 30) [hi]

/-! ### Readback -/

@[simp] theorem State.onRead_inv (s : State) (f : ReadState → ReadState) (hi : State.Inv s) :
    (State.onRead s f).Inv := by
  unfold State.onRead
  try dsimp only
  all_goals simp (maxDischargeDepth := 30) [hi]

@[simp] theorem State.abandonReception_inv (s : State) (hi : State.Inv s) :
    (State.abandonReception s).Inv := by
  unfold State.abandonReception
  try dsimp only
  repeat' split
  all_goals simp (maxDischargeDepth := 30) [hi]

@[simp] theorem State.readReposition_inv (s : State) (kind : StopKind) (ask : ReadAsk) (hi : State.Inv s) :
    (State.readReposition s kind ask).Inv := by
  unfold State.readReposition
  try dsimp only
  all_goals simp (maxDischargeDepth := 30) [hi]

@[simp] theorem State.startRead_inv (s : State) (p : TapePos) (hi : State.Inv s) : (State.startRead s p).Inv := by
  refine (inv_onMc _).2 (inv_onRg _ hi fun g => ?_)
  split
  · exact le_refl _
  · exact Rg.startRun_level g

@[simp] theorem State.beginRead_inv (s : State) (hi : State.Inv s) :
    (State.beginRead s).Inv := by
  unfold State.beginRead
  try dsimp only
  repeat' split
  all_goals simp (maxDischargeDepth := 30) [hi]

@[simp] theorem State.formRead_inv (s : State) (p : DsPos) (hi : State.Inv s) :
    (State.formRead s p).Inv := by
  unfold State.formRead
  try dsimp only
  repeat' split
  all_goals simp (maxDischargeDepth := 30) [hi]

@[simp] theorem State.clearRead_inv (s : State) (gone : Bool) (hi : State.Inv s) :
    (State.clearRead s gone).Inv := by
  unfold State.clearRead
  try dsimp only
  repeat' split
  all_goals simp (maxDischargeDepth := 30) [hi]

/-- The read side is left with no slot in a read-side state, so that every slot is FREE (R19). -/
@[simp] theorem State.leaveRead_inv (s : State) (hi : State.Inv s) (hd : s.spm.direction = .readOpen) :
    (State.leaveRead s).Inv := by
  unfold State.leaveRead
  have hc := State.clearRead_inv s true hi
  have hcd : (s.clearRead true).spm.direction = .readOpen := by
    show s.abandonReception.spm.direction = .readOpen
    rw [State.abandonReception_direction, hd]
  refine inv_leave (inv_table _ hc hc.2.2.2.2.2.1 (Spm.fits_of_free fun x hx => ?_))
  refine hc.2.2.2.2.2.2.read hcd hx ?_
  obtain ⟨y, _, rfl⟩ := List.mem_map.1 (show x ∈ s.abandonReception.spm.slots.map _ from hx)
  split
  · rfl
  · next h => simpa using h

@[simp] theorem State.foundEod_inv (s : State) (e : EodFound) (hi : State.Inv s) :
    (State.foundEod s e).Inv := by
  unfold State.foundEod
  try dsimp only
  repeat' split
  all_goals simp (maxDischargeDepth := 30) [hi]

@[simp] theorem State.advanceN_inv (s : State) (takeFloor : Bool) (hi : State.Inv s) :
    (State.advanceN s takeFloor).Inv := by
  unfold State.advanceN
  try dsimp only
  repeat' split
  all_goals simp (maxDischargeDepth := 30) [hi]

@[simp] theorem State.askSlot_inv (s : State) (p : TapePos) (hi : State.Inv s) :
    (State.askSlot s p).Inv := by
  unfold State.askSlot
  try dsimp only
  repeat' split
  all_goals simp (maxDischargeDepth := 30) [hi]

@[simp] theorem State.blocked_inv (s : State) (r : ReadState) (hi : State.Inv s) :
    (State.blocked s r).Inv := by
  unfold State.blocked
  try dsimp only
  repeat' split
  all_goals simp (maxDischargeDepth := 30) [hi]

@[simp] theorem State.acceptSlot_inv (s : State) (x : Reception) (h : Header) (hi : State.Inv s) :
    (State.acceptSlot s x h).Inv := by
  unfold State.acceptSlot
  try dsimp only
  all_goals simp (maxDischargeDepth := 30) [hi]

@[simp] theorem State.afterAccept_inv (s : State) (r : ReadState) (x : Reception) (h : Header) (hi : State.Inv s) :
    (State.afterAccept s r x h).Inv := by
  unfold State.afterAccept
  try dsimp only
  repeat' split
  all_goals simp (maxDischargeDepth := 30) [hi]

@[simp] theorem State.scoreRuling_inv (s : State) (r : ReadState) (h : Header) (counts : Option Counts) (z : Ruling) (hi : State.Inv s) :
    (State.scoreRuling s r h counts z).Inv := by
  unfold State.scoreRuling
  try dsimp only
  repeat' split
  all_goals simp (maxDischargeDepth := 30) [hi]

@[simp] theorem State.storeRest_inv (s : State) (x : Reception) (hi : State.Inv s) :
    (State.storeRest s x).Inv := by
  unfold State.storeRest
  simp (maxDischargeDepth := 30) [hi]

@[simp] theorem State.windowFull_inv (s : State) (hi : State.Inv s) :
    (State.windowFull s).Inv := by
  unfold State.windowFull
  try dsimp only
  all_goals simp (maxDischargeDepth := 30) [hi]

@[simp] theorem State.rule_inv (s : State) (r : ReadState) (x : Reception) (report : Option (Bool × Bool × Counts)) (hi : State.Inv s) :
    (State.rule s r x report).Inv := by
  unfold State.rule
  try dsimp only
  repeat' split
  all_goals simp (maxDischargeDepth := 30) [hi]

@[simp] theorem State.ruleMissing_inv (s : State) (hi : State.Inv s) :
    (State.ruleMissing s).Inv := by
  unfold State.ruleMissing
  try dsimp only
  repeat' split
  all_goals simp (maxDischargeDepth := 30) [hi]

@[simp] theorem State.readTurn_inv (s : State) (p : TapePos) (hi : State.Inv s) :
    (State.readTurn s p).Inv := by
  unfold State.readTurn
  try dsimp only
  repeat' split
  all_goals simp (maxDischargeDepth := 30) [hi]

@[simp] theorem State.placeMarker_inv (s : State) (i : Nat) (hi : State.Inv s) :
    (State.placeMarker s i).Inv := by
  unfold State.placeMarker
  try dsimp only
  repeat' split
  all_goals simp (maxDischargeDepth := 30) [hi]

@[simp] theorem State.beginRetry_inv (s : State) (r : ReadState) (w : Window) (hi : State.Inv s) :
    (State.beginRetry s r w).Inv := by
  unfold State.beginRetry
  try dsimp only
  repeat' split
  all_goals simp (maxDischargeDepth := 30) [hi]

@[simp] theorem State.newRound_inv (s : State) (i : Nat) (m : Marker) (hi : State.Inv s) :
    (State.newRound s i m).Inv := by
  unfold State.newRound
  try dsimp only
  all_goals simp (maxDischargeDepth := 30) [hi]

/-! ### Deliver -/

@[simp] theorem State.deliveredFree_inv (s : State) (i : Nat) (hi : State.Inv s) :
    (State.deliveredFree s i).Inv := by
  unfold State.deliveredFree
  try dsimp only
  all_goals simp (maxDischargeDepth := 30) [hi]

@[simp] theorem State.returnSlot_inv (s : State) (hi : State.Inv s) :
    (State.returnSlot s).Inv := by
  unfold State.returnSlot
  try dsimp only
  repeat' split
  all_goals simp (maxDischargeDepth := 30) [hi]

@[simp] theorem State.endDelivery_inv (s : State) (x : Nat × Nat) (r : Result) (residual : Option Nat) (stripe : Nat) (hi : State.Inv s) :
    (State.endDelivery s x r residual stripe).Inv := by
  unfold State.endDelivery
  try dsimp only
  repeat' split
  all_goals simp (maxDischargeDepth := 30) [hi]

@[simp] theorem State.passRecord_inv (s : State) (i e : Nat) (x : Nat × Nat) (r : Result) (residual : Option Nat) (hi : State.Inv s) :
    (State.passRecord s i e x r residual).Inv := by
  unfold State.passRecord
  try dsimp only
  repeat' split
  all_goals simp (maxDischargeDepth := 30) [hi]

@[simp] theorem State.failDelivery_inv (s : State) (r : Result) (stripe : Nat) (hi : State.Inv s) :
    (State.failDelivery s r stripe).Inv := by
  unfold State.failDelivery
  try dsimp only
  all_goals simp (maxDischargeDepth := 30) [hi]

@[simp] theorem State.finishDelivery_inv (s : State) (hi : State.Inv s) :
    (State.finishDelivery s).Inv := by
  unfold State.finishDelivery
  try dsimp only
  repeat' split
  all_goals simp (maxDischargeDepth := 30) [hi]

@[simp] theorem State.streamError_inv (s : State) (d : Delivery) (hi : State.Inv s) :
    (State.streamError s d).Inv := by
  unfold State.streamError
  try dsimp only
  repeat' split
  all_goals simp (maxDischargeDepth := 30) [hi]

@[simp] theorem State.openEntryOf_inv (s : State) (i : Nat) (p : DsPos) (hi : State.Inv s) :
    (State.openEntryOf s i p).Inv := by
  unfold State.openEntryOf
  try dsimp only
  repeat' split
  all_goals simp (maxDischargeDepth := 30) [hi]

@[simp] theorem State.meetMarker_inv (s : State) (i stripe : Nat) (r : Result) (at_ : Nat) (hi : State.Inv s) :
    (State.meetMarker s i stripe r at_).Inv := by
  unfold State.meetMarker
  try dsimp only
  repeat' split
  all_goals simp (maxDischargeDepth := 30) [hi]

@[simp] theorem State.tryOpen_inv (s : State) (hi : State.Inv s) :
    (State.tryOpen s).Inv := by
  unfold State.tryOpen
  try dsimp only
  repeat' split
  all_goals simp (maxDischargeDepth := 30) [hi]

@[simp] theorem State.unpackTaken_inv (s : State) (w : Nat) (hi : State.Inv s) :
    (State.unpackTaken s w).Inv := by
  unfold State.unpackTaken
  try dsimp only
  repeat' split
  all_goals simp (maxDischargeDepth := 30) [hi]

@[simp] theorem State.decodeRun_inv (s : State) (d : Delivery) (hi : State.Inv s) :
    (State.decodeRun s d).Inv := by
  unfold State.decodeRun
  try dsimp only
  repeat' split
  all_goals simp (maxDischargeDepth := 30) [hi]

@[simp] theorem State.handTo_inv (s : State) (d : Delivery) (j : Nat) (hi : State.Inv s) :
    (State.handTo s d j).Inv := by
  unfold State.handTo
  try dsimp only
  repeat' split
  all_goals simp (maxDischargeDepth := 30) [hi]

@[simp] theorem State.tryHandover_inv (s : State) (d : Delivery) (hi : State.Inv s) :
    (State.tryHandover s d).Inv := by
  unfold State.tryHandover
  try dsimp only
  repeat' split
  all_goals simp (maxDischargeDepth := 30) [hi]

@[simp] theorem State.abortDelivery_inv (s : State) (hi : State.Inv s) :
    (State.abortDelivery s).Inv := by
  unfold State.abortDelivery
  try dsimp only
  repeat' split
  all_goals simp (maxDischargeDepth := 30) [hi]

@[simp] theorem State.fetchCoded_inv (s : State) (d : Delivery) (hi : State.Inv s) :
    (State.fetchCoded s d).Inv := by
  unfold State.fetchCoded
  try dsimp only
  all_goals simp (maxDischargeDepth := 30) [hi]

/-! ### Search -/

@[simp] theorem State.setJob_inv (s : State) (j : Job) (hi : State.Inv s) :
    (State.setJob s j).Inv := by
  unfold State.setJob
  try dsimp only
  all_goals simp (maxDischargeDepth := 30) [hi]

@[simp] theorem State.goPlace_inv (s : State) (j : Job) (f : Finish) (p : TapePos) (hi : State.Inv s) :
    (State.goPlace s j f p).Inv := by
  unfold State.goPlace
  try dsimp only
  all_goals simp (maxDischargeDepth := 30) [hi]

@[simp] theorem State.goSearch_inv (s : State) (j : Job) (x : Search) (hi : State.Inv s) :
    (State.goSearch s j x).Inv := by
  unfold State.goSearch
  try dsimp only
  all_goals simp (maxDischargeDepth := 30) [hi]

@[simp] theorem State.stopJob_inv (s : State) (j : Job) (f : Finish) (hi : State.Inv s) :
    (State.stopJob s j f).Inv := by
  unfold State.stopJob
  try dsimp only
  all_goals simp (maxDischargeDepth := 30) [hi]

@[simp] theorem State.endJob_inv (s : State) (j : Job) (f : Finish) (hi : State.Inv s) :
    (State.endJob s j f).Inv := by
  unfold State.endJob
  try dsimp only
  repeat' split
  all_goals simp (maxDischargeDepth := 30) [hi]

@[simp] theorem State.clearForMove_inv (s : State) (hi : State.Inv s) :
    (State.clearForMove s).Inv := by
  unfold State.clearForMove
  try dsimp only
  repeat' split
  all_goals simp (maxDischargeDepth := 30) [hi]

@[simp] theorem State.goRecord_inv (s : State) (j : Job) (r : Nat) (f : Option Finish) (hi : State.Inv s) :
    (State.goRecord s j r f).Inv := by
  unfold State.goRecord
  try dsimp only
  repeat' split
  all_goals simp (maxDischargeDepth := 30) [hi]

@[simp] theorem State.goStripe_inv (s : State) (j : Job) (t : Nat) (hi : State.Inv s) :
    (State.goStripe s j t).Inv := by
  unfold State.goStripe
  try dsimp only
  repeat' split
  all_goals simp (maxDischargeDepth := 30) [hi]

@[simp] theorem State.goEnd_inv (s : State) (j : Job) (hi : State.Inv s) :
    (State.goEnd s j).Inv := by
  unfold State.goEnd
  try dsimp only
  repeat' split
  all_goals simp (maxDischargeDepth := 30) [hi]

@[simp] theorem State.decideRecords_inv (s : State) (j : Job) (plan : SpacePlan) (aim : Nat) (clamped : Bool) (marks : List Nat) (hi : State.Inv s) :
    (State.decideRecords s j plan aim clamped marks).Inv := by
  unfold State.decideRecords
  try dsimp only
  repeat' split
  all_goals simp (maxDischargeDepth := 30) [hi]

@[simp] theorem State.decideMarks_inv (s : State) (j : Job) (plan : SpacePlan) (marks : List Nat) (scanEnd : Option DsPos) (hi : State.Inv s) :
    (State.decideMarks s j plan marks scanEnd).Inv := by
  unfold State.decideMarks
  try dsimp only
  repeat' split
  all_goals simp (maxDischargeDepth := 30) [hi]

@[simp] theorem State.goSpace_inv (s : State) (j0 : Job) (plan : SpacePlan) (hi : State.Inv s) :
    (State.goSpace s j0 plan).Inv := by
  unfold State.goSpace
  try dsimp only
  repeat' split
  all_goals simp (maxDischargeDepth := 30) [hi]

@[simp] theorem State.spanDone_inv (s : State) (j : Job) (x : Search) (ended : Bool) (hi : State.Inv s) :
    (State.spanDone s j x ended).Inv := by
  unfold State.spanDone
  try dsimp only
  repeat' split
  all_goals simp (maxDischargeDepth := 30) [hi]

@[simp] theorem State.overshoot_inv (s : State) (j : Job) (x : Search) (hi : State.Inv s) :
    (State.overshoot s j x).Inv := by
  unfold State.overshoot
  try dsimp only
  repeat' split
  all_goals simp (maxDischargeDepth := 30) [hi]

@[simp] theorem State.foundTarget_inv (s : State) (j : Job) (x : Search) (h : HeaderSeen) (r : Nat) (hi : State.Inv s) :
    (State.foundTarget s j x h r).Inv := by
  unfold State.foundTarget
  try dsimp only
  repeat' split
  all_goals simp (maxDischargeDepth := 30) [hi]

@[simp] theorem State.searchEnded_inv (s : State) (j : Job) (x : Search) (hi : State.Inv s) :
    (State.searchEnded s j x).Inv := by
  unfold State.searchEnded
  try dsimp only
  repeat' split
  all_goals simp (maxDischargeDepth := 30) [hi]

@[simp] theorem State.searchOn_inv (s : State) (j : Job) (x : Search) (hi : State.Inv s) :
    (State.searchOn s j x).Inv := by
  unfold State.searchOn
  try dsimp only
  repeat' split
  all_goals simp (maxDischargeDepth := 30) [hi]

@[simp] theorem State.matchHeader_inv (s : State) (j : Job) (x : Search) (h : HeaderSeen) (hi : State.Inv s) :
    (State.matchHeader s j x h).Inv := by
  unfold State.matchHeader
  try dsimp only
  repeat' split
  all_goals simp (maxDischargeDepth := 30) [hi]

@[simp] theorem State.ruleHeader_inv (s : State) (j : Job) (x : Search) (blank : Bool) (h : Option HeaderSeen) (hi : State.Inv s) :
    (State.ruleHeader s j x blank h).Inv := by
  unfold State.ruleHeader
  try dsimp only
  repeat' split
  all_goals simp (maxDischargeDepth := 30) [hi]

@[simp] theorem State.staleEnded_inv (s : State) (j : Job) (x : Search) (hi : State.Inv s) :
    (State.staleEnded s j x).Inv := by
  unfold State.staleEnded
  try dsimp only
  repeat' split
  all_goals simp (maxDischargeDepth := 30) [hi]

@[simp] theorem State.staleOn_inv (s : State) (j : Job) (x : Search) (hi : State.Inv s) :
    (State.staleOn s j x).Inv := by
  unfold State.staleOn
  try dsimp only
  repeat' split
  all_goals simp (maxDischargeDepth := 30) [hi]

theorem applyHeld_inv : ∀ (n : Nat) (s : State) (x : Search) (k : HeaderSeen), s.Inv → (applyHeld n s x k).1.Inv
  | 0, _, _, _, hi => hi
  | n + 1, s, x, k, hi => by
    unfold applyHeld
    dsimp only
    split
    · exact applyHeld_inv n _ _ _ (State.applyStripe_inv _ _ hi)
    · exact State.applyStripe_inv _ _ hi

@[simp] theorem State.ruleStale_inv (s : State) (j : Job) (x : Search) (blank : Bool) (h : Option HeaderSeen)
    (hi : s.Inv) : (s.ruleStale j x blank h).Inv := by
  unfold State.ruleStale
  dsimp only
  repeat' split
  all_goals simp (maxDischargeDepth := 30) [hi, applyHeld_inv]


@[simp] theorem State.ruleReport_inv (s : State) (j : Job) (x : Search) (blank : Bool) (h : Option HeaderSeen) (hi : State.Inv s) :
    (State.ruleReport s j x blank h).Inv := by
  unfold State.ruleReport
  try dsimp only
  repeat' split
  all_goals simp (maxDischargeDepth := 30) [hi]

@[simp] theorem State.searchAtMediaEnd_inv (s : State) (j : Job) (x : Search) (hi : State.Inv s) :
    (State.searchAtMediaEnd s j x).Inv := by
  unfold State.searchAtMediaEnd
  try dsimp only
  repeat' split
  all_goals simp (maxDischargeDepth := 30) [hi]

/-! ### Sensor -/

@[simp] theorem State.ensurePair_inv (s : State) (hi : State.Inv s) :
    (State.ensurePair s).Inv := by
  unfold State.ensurePair
  try dsimp only
  repeat' split
  all_goals simp (maxDischargeDepth := 30) [hi]

@[simp] theorem State.halfComplete_inv (s : State) (i : Nat) (hi : State.Inv s) :
    (State.halfComplete s i).Inv := by
  unfold State.halfComplete
  try dsimp only
  repeat' split
  all_goals simp (maxDischargeDepth := 30) [hi]

@[simp] theorem State.addResult_inv (s : State) (r : SensorResult) (hi : State.Inv s) :
    (State.addResult s r).Inv := by
  unfold State.addResult
  try dsimp only
  repeat' split
  all_goals simp (maxDischargeDepth := 30) [hi]

@[simp] theorem State.writeSensor_inv (s : State) (i : Nat) (bytes : List Byte) (hi : State.Inv s) :
    (State.writeSensor s i bytes).Inv := by
  unfold State.writeSensor
  try dsimp only
  repeat' split
  all_goals simp (maxDischargeDepth := 30) [hi]

@[simp] theorem State.pauseStreaming_inv (s : State) (hi : State.Inv s) :
    (State.pauseStreaming s).Inv := by
  unfold State.pauseStreaming
  try dsimp only
  repeat' split
  all_goals simp (maxDischargeDepth := 30) [hi]

@[simp] theorem State.thermal_inv (s : State) (raw : Nat) (hi : State.Inv s) :
    (State.thermal s raw).Inv := by
  unfold State.thermal
  try dsimp only
  repeat' split
  all_goals simp (maxDischargeDepth := 30) [hi]

@[simp] theorem State.converted_inv (s : State) (q : Sequence) (raw : Nat) (hi : State.Inv s) :
    (State.converted s q raw).Inv := by
  unfold State.converted
  try dsimp only
  repeat' split
  all_goals simp (maxDischargeDepth := 30) [hi]

/-! ### Thread -/

@[simp] theorem State.faultNote_inv (s : State) (cause : Nat) (hi : State.Inv s) :
    (State.faultNote s cause).Inv := by
  unfold State.faultNote
  try dsimp only
  repeat' split
  all_goals simp (maxDischargeDepth := 30) [hi]

@[simp] theorem State.enterFault_inv (s : State) (cause : Nat) (r : Result) (detailB : Detail) (hi : State.Inv s) :
    (State.enterFault s cause r detailB).Inv := by
  unfold State.enterFault
  try dsimp only
  repeat' split
  all_goals simp (maxDischargeDepth := 30) [hi]

@[simp] theorem State.failRecovery_inv (s : State) (j : Job) (hi : State.Inv s) :
    (State.failRecovery s j).Inv := by
  unfold State.failRecovery
  try dsimp only
  repeat' split
  all_goals simp (maxDischargeDepth := 30) [hi]

@[simp] theorem State.beginThreading_inv (s : State) (kind : CartKind) (hi : State.Inv s) :
    (State.beginThreading s kind).Inv := by
  unfold State.beginThreading
  try dsimp only
  repeat' split
  all_goals simp (maxDischargeDepth := 30) [hi]

@[simp] theorem State.attemptFailed_inv (s : State) (t : Thread) (tapeInPath : Bool) (why : Nat) (hi : State.Inv s) :
    (State.attemptFailed s t tapeInPath why).Inv := by
  unfold State.attemptFailed
  try dsimp only
  repeat' split
  all_goals simp (maxDischargeDepth := 30) [hi]

@[simp] theorem State.raiseLoads_inv (s : State) (hi : State.Inv s) :
    (State.raiseLoads s).Inv := by
  unfold State.raiseLoads
  try dsimp only
  all_goals simp (maxDischargeDepth := 30) [hi]

@[simp] theorem State.threaded_inv (s : State) (hi : State.Inv s) :
    (State.threaded s).Inv := by
  unfold State.threaded
  try dsimp only
  repeat' split
  all_goals simp (maxDischargeDepth := 30) [hi]

@[simp] theorem State.beginUnthread_inv (s : State) (hi : State.Inv s) :
    (State.beginUnthread s).Inv := by
  unfold State.beginUnthread
  try dsimp only
  repeat' split
  all_goals simp (maxDischargeDepth := 30) [hi]

@[simp] theorem State.threadedCleaning_inv (s : State) (hi : State.Inv s) :
    (State.threadedCleaning s).Inv := by
  unfold State.threadedCleaning
  try dsimp only
  repeat' split
  all_goals simp (maxDischargeDepth := 30) [hi]

@[simp] theorem State.cleaned_inv (s : State) (hi : State.Inv s) :
    (State.cleaned s).Inv := by
  unfold State.cleaned
  try dsimp only
  all_goals simp (maxDischargeDepth := 30) [hi]

@[simp] theorem State.ejected_inv (s : State) (hi : State.Inv s) :
    (State.ejected s).Inv := by
  unfold State.ejected
  try dsimp only
  repeat' split
  all_goals simp (maxDischargeDepth := 30) [hi]

@[simp] theorem State.beginRecovery_inv (s : State) (j : Job) (hi : State.Inv s) :
    (State.beginRecovery s j).Inv := by
  unfold State.beginRecovery
  try dsimp only
  all_goals simp (maxDischargeDepth := 30) [hi]

/-! ### Link -/

@[simp] theorem State.program_inv (s : State) (kind : LinkKind) (k : Nat) (hi : State.Inv s) :
    (State.program s kind k).Inv := by
  unfold State.program
  try dsimp only
  all_goals simp (maxDischargeDepth := 30) [hi]

@[simp] theorem State.beginLink_inv (s : State) (kind : LinkKind) (steps : List Transaction) (hi : State.Inv s) :
    (State.beginLink s kind steps).Inv := by
  unfold State.beginLink
  try dsimp only
  all_goals simp (maxDischargeDepth := 30) [hi]

@[simp] theorem State.afterLoadRead_inv (s : State) (hi : State.Inv s) :
    (State.afterLoadRead s).Inv := by
  unfold State.afterLoadRead
  try dsimp only
  repeat' split
  all_goals simp (maxDischargeDepth := 30) [hi]

@[simp] theorem State.afterCounters_inv (s : State) (ok : Bool) (hi : State.Inv s) :
    (State.afterCounters s ok).Inv := by
  unfold State.afterCounters
  try dsimp only
  repeat' split
  all_goals simp (maxDischargeDepth := 30) [hi]

@[simp] theorem State.afterInvalidate_inv (s : State) (id : Nat) (aborted ok : Bool) (hi : State.Inv s) :
    (State.afterInvalidate s id aborted ok).Inv := by
  unfold State.afterInvalidate
  try dsimp only
  repeat' split
  all_goals first
    | exact State.openSession_inv _ _ hi (State.openWriteCheck_none ‹_›)
    | simp (maxDischargeDepth := 30) [hi]

@[simp] theorem State.afterSave_inv (s : State) (code : Nat) (hi : State.Inv s) :
    (State.afterSave s code).Inv := by
  unfold State.afterSave
  try dsimp only
  repeat' split
  all_goals simp (maxDischargeDepth := 30) [hi]

@[simp] theorem State.saved_inv (s : State) (hi : State.Inv s) :
    (State.saved s).Inv := by
  unfold State.saved
  try dsimp only
  repeat' split
  all_goals simp (maxDischargeDepth := 30) [hi]

@[simp] theorem State.saveFailed_inv (s : State) (page : Nat) (hi : State.Inv s) :
    (State.saveFailed s page).Inv := by
  unfold State.saveFailed
  try dsimp only
  repeat' split
  all_goals simp (maxDischargeDepth := 30) [hi]

@[simp] theorem State.beginSave_inv (s : State) (hi : State.Inv s) :
    (State.beginSave s).Inv := by
  unfold State.beginSave
  try dsimp only
  repeat' split
  all_goals simp (maxDischargeDepth := 30) [hi]

@[simp] theorem State.linkDone_inv (s : State) (op : LinkOp) (hi : State.Inv s) :
    (State.linkDone s op).Inv := by
  unfold State.linkDone
  try dsimp only
  repeat' split
  all_goals simp (maxDischargeDepth := 30) [hi]

@[simp] theorem State.linkFailed_inv (s : State) (op : LinkOp) (t : Transaction) (hi : State.Inv s) :
    (State.linkFailed s op t).Inv := by
  unfold State.linkFailed
  try dsimp only
  repeat' split
  all_goals simp (maxDischargeDepth := 30) [hi]

@[simp] theorem State.linkAck_inv (s : State) (op : LinkOp) (t : Transaction) (rest : List Transaction) (hi : State.Inv s) :
    (State.linkAck s op t rest).Inv := by
  unfold State.linkAck
  try dsimp only
  repeat' split
  all_goals simp (maxDischargeDepth := 30) [hi]

@[simp] theorem State.linkNoAck_inv (s : State) (op : LinkOp) (t : Transaction) (hi : State.Inv s) :
    (State.linkNoAck s op t).Inv := by
  unfold State.linkNoAck
  try dsimp only
  repeat' split
  all_goals simp (maxDischargeDepth := 30) [hi]

@[simp] theorem State.linkOutcome_inv (s : State) (op : LinkOp) (t : Transaction) (rest : List Transaction) (z : LinkOutcome) (hi : State.Inv s) :
    (State.linkOutcome s op t rest z).Inv := by
  unfold State.linkOutcome
  try dsimp only
  repeat' split
  all_goals simp (maxDischargeDepth := 30) [hi]

@[simp] theorem State.cutLink_inv (s : State) (hi : State.Inv s) :
    (State.cutLink s).Inv := by
  unfold State.cutLink
  try dsimp only
  repeat' split
  all_goals simp (maxDischargeDepth := 30) [hi]

/-! ### Reset -/

@[simp] theorem State.answerAllError_inv (s : State) (hi : s.Inv) : (s.answerAllError).Inv :=
  inv_foldl (fun s a h => State.answerError_inv s a h) _ hi


theorem drained_wf : ∀ (l : List UpReq) {m : List Host.Cell}, Memory.wf m = true →
    Memory.wf (l.foldl (fun d r =>
      match r with
      | .line block bytes => Memory.writeMarked d block bytes
      | .access _ => d) m) = true
  | [], _, h => h
  | .line block bytes :: l, _, h => drained_wf l (Memory.wf_writeMarked bytes block h)
  | .access _ :: l, _, h => drained_wf l h

@[simp] theorem State.drainLines_inv (s : State) (hi : State.Inv s) : (State.drainLines s).Inv :=
  ⟨⟨drained_wf _ hi.1.1, hi.1.2⟩, hi.2⟩

theorem Ci.reset_numbered (n : Nat) : (Ci.reset n).Numbered := by
  simp [Ci.reset, Ci.Numbered]

@[simp] theorem State.controllerReset_inv (s : State) (hi : s.Inv) : (s.controllerReset).Inv := by
  unfold State.controllerReset
  dsimp only
  refine State.judgeAttn_inv _ (inv_onHm _ ?_ (fun _ => rfl) fun _ => le_refl _)
  refine (inv_onSs _).2 ((inv_onMc _).2 ?_)
  have h : s.answerAllError.drainLines.cutLink.Inv :=
    State.cutLink_inv _ (State.drainLines_inv _ (State.answerAllError_inv _ hi))
  have h6 := inv_onRg (fun r => { r.leave with f := 0 }) ((inv_onUe fun _ => Ue.reset).2 ((inv_onTte fun _ => Tte.reset).2
    (inv_table (fun m =>
      { m with slots := [], direction := .none, sealTimer := none, sealing := none, clearing := false, dropFrom := none })
      ((inv_onPe fun p => Pe.reset p.compression).2 ((inv_onCw fun c => Cw.reset c.shown).2
        (inv_onCi (fun c => Ci.reset c.nextId) ((inv_onBpu fun b =>
          { b with
            effective := clearedTable, upstream := [], held := []
            starve := Starve.zero, rewrites := 17, ring := resetRing }).2 h)
          (fun c _ => Ci.reset_numbered c.nextId) fun _ => Nat.zero_le _)))
      (Nat.zero_le _) (Spm.fits_of_free fun _ h => absurd h List.not_mem_nil)))) fun _ => le_refl _
  split
  · exact (inv_onPins _).2 h6
  · exact h6


/-! ### Intake -/

theorem inv_replicate {s : State} (n : Nat) (hi : s.Inv) (hn : n ≤ 384) :
    (s.onSpm fun m => { m with slots := List.replicate n Slot.empty }).Inv :=
  inv_table _ hi (by rw [List.length_replicate]; exact hn)
    (Spm.fits_of_free fun x hx => by rw [List.eq_of_mem_replicate hx]; rfl)

@[simp] theorem State.runSetPool_inv (s : State) (id n : Nat) (hi : s.Inv) : (s.runSetPool id n).Inv := by
  unfold State.runSetPool
  dsimp only
  split
  · exact State.completeBare_inv _ _ _ hi
  · split
    · exact State.completeBare_inv _ _ _ hi
    · exact State.complete_inv _ _ _ _ _ (inv_replicate n hi (by omega))


@[simp] theorem State.runSetCompression_inv (s : State) (id setting : Nat) (hi : State.Inv s) :
    (State.runSetCompression s id setting).Inv := by
  unfold State.runSetCompression
  try dsimp only
  repeat' split
  all_goals simp (maxDischargeDepth := 30) [hi]

@[simp] theorem State.runSetSealInterval_inv (s : State) (id seconds : Nat) (hi : State.Inv s) :
    (State.runSetSealInterval s id seconds).Inv := by
  unfold State.runSetSealInterval
  try dsimp only
  repeat' split
  all_goals simp (maxDischargeDepth := 30) [hi]

@[simp] theorem State.runSensorPlan_inv (s : State) (id : Nat) (p : PlanArgs) (hi : State.Inv s) :
    (State.runSensorPlan s id p).Inv := by
  unfold State.runSensorPlan
  try dsimp only
  repeat' split
  all_goals simp (maxDischargeDepth := 30) [hi]

theorem mid_index {s : State} (ci : Nat) (hi : s.Inv) (hc : ci ≤ 1000) :
    (s.onHm fun h => { h with ci := ci }).Inv := by
  refine ⟨hi.1, hi.2.1, hi.2.2.1, ?_, hc, hi.2.2.2.2.2⟩
  have := hi.2.2.2.1
  simp only [State.LevelOk, Hm.cap, State.onHm_rg, State.onHm_hm] at this ⊢
  exact this

@[simp] theorem State.runSetHealth_inv (s : State) (id ci : Nat) (hi : s.Inv) : (s.runSetHealth id ci).Inv := by
  unfold State.runSetHealth
  dsimp only
  split
  · exact State.completeBare_inv _ _ _ hi
  · exact State.complete_inv _ _ _ _ _ (State.enterHealth_inv _ _ _ (mid_index ci hi (by omega)))


@[simp] theorem State.runQueryHealth_inv (s : State) (id : Nat) (hi : State.Inv s) :
    (State.runQueryHealth s id).Inv := by
  unfold State.runQueryHealth
  try dsimp only
  all_goals simp (maxDischargeDepth := 30) [hi]

@[simp] theorem State.runLoopback_inv (s : State) (id slot : Nat) (hi : State.Inv s) :
    (State.runLoopback s id slot).Inv := by
  unfold State.runLoopback
  try dsimp only
  repeat' split
  all_goals simp (maxDischargeDepth := 30) [hi]

@[simp] theorem State.stopReposition_inv (s : State) (hi : State.Inv s) :
    (State.stopReposition s).Inv := by
  unfold State.stopReposition
  try dsimp only
  repeat' split
  all_goals simp (maxDischargeDepth := 30) [hi]

@[simp] theorem State.stopStreaming_inv (s : State) (hi : State.Inv s) :
    (State.stopStreaming s).Inv := by
  unfold State.stopStreaming
  try dsimp only
  repeat' split
  all_goals simp (maxDischargeDepth := 30) [hi]

@[simp] theorem State.runClose_inv (s : State) (id : Nat) (hi : State.Inv s) :
    (State.runClose s id).Inv := by
  unfold State.runClose
  repeat' split
  · exact State.completeBare_inv _ _ _ hi
  · next h => exact State.completeBare_inv _ _ _ (State.leaveWrite_inv s hi fun x hx => by
      simpa using List.all_eq_true.1 h x hx)
  all_goals simp_all (maxDischargeDepth := 30)

@[simp] theorem State.abortPool_inv (s : State) (hi : State.Inv s) :
    (State.abortPool s).Inv := by
  unfold State.abortPool
  try dsimp only
  repeat' split
  all_goals simp_all (maxDischargeDepth := 30)

@[simp] theorem State.abortJob_inv (s : State) (hi : State.Inv s) :
    (State.abortJob s).Inv := by
  unfold State.abortJob
  try dsimp only
  repeat' split
  all_goals simp (maxDischargeDepth := 30) [hi]

@[simp] theorem State.abortData_inv (s : State) (id : Nat) (hi : State.Inv s) :
    (State.abortData s id).Inv := by
  unfold State.abortData
  try dsimp only
  repeat' split
  all_goals simp (maxDischargeDepth := 30) [hi]

@[simp] theorem State.cutData_inv (s : State) (id : Nat) (hi : State.Inv s) :
    (State.cutData s id).Inv := by
  unfold State.cutData
  try dsimp only
  repeat' split
  all_goals simp (maxDischargeDepth := 30) [hi]

@[simp] theorem State.abortQueues_inv (s : State) (hi : s.Inv) : (s.abortQueues).Inv := by
  unfold State.abortQueues
  dsimp only
  exact inv_foldl (fun s k h => State.completeBare_inv s k _ h) _
    (inv_foldl (fun s k h => State.cutData_inv s k h) _ ((inv_onCml _).2 hi))


@[simp] theorem State.completeAborts_inv (s : State) (hi : s.Inv) : (s.completeAborts).Inv :=
  inv_foldl (fun s k h => State.completeBare_inv s k _ h) _ hi


@[simp] theorem State.runAbort_inv (s : State) (id : Nat) (hi : s.Inv) (hid : id < s.ci.nextId) : (s.runAbort id).Inv := by
  unfold State.runAbort
  dsimp only
  have h0 : ((s.setStage id .running).onCi fun c => { c with aborts := c.aborts ++ [id] }).Inv := by
    have h := State.setStage_inv s id .running hi
    refine ⟨h.1, ⟨h.2.1.1, h.2.1.2.1, h.2.1.2.2.1, h.2.1.2.2.2.1, fun k hk => ?_⟩, h.2.2⟩
    rcases List.mem_append.1 hk with hk | hk
    · exact h.2.1.2.2.2.2 k hk
    · simp only [List.mem_singleton] at hk
      subst hk
      exact hid
  split
  all_goals simp (maxDischargeDepth := 30) [h0]


@[simp] theorem State.runConfig_inv (s : State) (t : Taken) (hi : s.Inv) (hid : t.id < s.ci.nextId) : (s.runConfig t).Inv := by
  unfold State.runConfig
  repeat' split
  all_goals simp (maxDischargeDepth := 30) [hi, hid]


theorem State.headStream_inv (s : State) (t : Taken) (count : Nat) (lengths : List Nat) {u : State} (hi : s.Inv) (hu : s.headStream t count lengths = some u) : u.Inv := by
  unfold State.headStream at hu
  repeat' split at hu
  all_goals first
    | (simp at hu; done)
    | (simp only [Option.some.injEq] at hu
       subst hu
       first
         | (simp (maxDischargeDepth := 30) [hi]; done)
         | exact (inv_onPe _).2 (inv_onCi _ (State.setStage_inv _ _ _ hi)
             (fun c h => ⟨h.1, h.2.1, fun k hk => h.2.2.1 k (List.mem_of_mem_filter hk), h.2.2.2⟩) fun c => le_refl _))


theorem State.headMark_inv (s : State) (t : Taken) (count sync : Nat) {u : State} (hi : s.Inv) (hu : s.headMark t count sync = some u) : u.Inv := by
  unfold State.headMark at hu
  repeat' split at hu
  all_goals first
    | (simp at hu; done)
    | (simp only [Option.some.injEq] at hu
       subst hu
       first
         | (simp (maxDischargeDepth := 30) [hi]; done)
         | exact (inv_onPe _).2 (inv_onCi _ (State.setStage_inv _ _ _ hi)
             (fun c h => ⟨h.1, h.2.1, fun k hk => h.2.2.1 k (List.mem_of_mem_filter hk), h.2.2.2⟩) fun c => le_refl _))


@[simp] theorem State.endFlush_inv (s : State) (id : Nat) (r : Result) (hi : State.Inv s) :
    (State.endFlush s id r).Inv := by
  unfold State.endFlush
  try dsimp only
  all_goals simp (maxDischargeDepth := 30) [hi]

theorem State.headFlush_inv (s : State) (t : Taken) {u : State} (hi : State.Inv s)
    (hu : State.headFlush s t = some u) : u.Inv := by
  revert hu
  unfold State.headFlush
  try dsimp only
  repeat' split
  all_goals (intro hu; first | (simp at hu; done) | (simp at hu; try subst hu; simp_all (maxDischargeDepth := 30)))

theorem State.headOpenWrite_inv (s : State) (t : Taken) {u : State} (hi : State.Inv s)
    (hu : State.headOpenWrite s t = some u) : u.Inv := by
  unfold State.headOpenWrite at hu
  repeat' split at hu
  all_goals first
    | (simp at hu; done)
    | (obtain rfl := Option.some.inj hu)
  all_goals first
    | exact State.openSession_inv _ _ hi (State.openWriteCheck_none ‹_›)
    | simp (maxDischargeDepth := 30) [hi]

@[simp] theorem State.openRead_inv (s : State) (id : Nat) (hi : State.Inv s) (hd : s.spm.direction = .none) :
    (State.openRead s id).Inv :=
  State.beginRead_inv _ (State.complete_inv _ _ _ _ _ (State.openRate_inv _ ((inv_onUe _).2
    (State.formRead_inv _ _ (inv_open _ hi hd fun _ => rfl)))))

theorem State.headOpenRead_inv (s : State) (t : Taken) {u : State} (hi : State.Inv s)
    (hu : State.headOpenRead s t = some u) : u.Inv := by
  unfold State.headOpenRead at hu
  split at hu <;> obtain rfl := Option.some.inj hu
  · exact State.completeBare_inv _ _ _ hi
  · exact State.openRead_inv _ _ hi (State.openReadCheck_none ‹_›)

theorem State.headDeliver_inv (s : State) (t : Taken) (length : Nat) {u : State} (hi : State.Inv s)
    (hu : State.headDeliver s t length = some u) : u.Inv := by
  revert hu
  unfold State.headDeliver
  try dsimp only
  repeat' split
  all_goals (intro hu; first | (simp at hu; done) | (simp at hu; try subst hu; simp_all (maxDischargeDepth := 30)))

theorem State.serveData_inv (s : State) {t : State} (hi : s.Inv) (h : State.serveData s = some t) : t.Inv := by
  unfold State.serveData at h
  repeat' split at h
  all_goals first
    | (simp at h; done)
    | exact State.headStream_inv _ _ _ _ hi h
    | exact State.headMark_inv _ _ _ _ hi h
    | exact State.headFlush_inv _ _ hi h
    | exact State.headOpenWrite_inv _ _ hi h
    | exact State.headOpenRead_inv _ _ hi h
    | exact State.headDeliver_inv _ _ _ hi h
    | (simp at h; subst h; exact State.completeBare_inv _ _ _ hi)


@[simp] theorem State.askLoadRead_inv (s : State) (hi : State.Inv s) : (State.askLoadRead s).Inv := by
  unfold State.askLoadRead
  split
  all_goals simp (maxDischargeDepth := 30) [hi]

@[simp] theorem State.runLoad_inv (s : State) (id : Nat) (hi : State.Inv s) :
    (State.runLoad s id).Inv := by
  unfold State.runLoad
  try dsimp only
  repeat' split
  all_goals simp (maxDischargeDepth := 30) [hi]

@[simp] theorem State.unloadPool_inv (s : State) (hi : State.Inv s) :
    (State.unloadPool s).Inv := by
  unfold State.unloadPool
  try dsimp only
  repeat' split
  all_goals simp (maxDischargeDepth := 30) [hi]

@[simp] theorem State.runUnload_inv (s : State) (id : Nat) (hi : State.Inv s) :
    (State.runUnload s id).Inv := by
  unfold State.runUnload
  try dsimp only
  repeat' split
  all_goals simp (maxDischargeDepth := 30) [hi]

@[simp] theorem State.runRewind_inv (s : State) (id : Nat) (hi : State.Inv s) :
    (State.runRewind s id).Inv := by
  unfold State.runRewind
  try dsimp only
  repeat' split
  all_goals simp (maxDischargeDepth := 30) [hi]

@[simp] theorem State.runLocate_inv (s : State) (id kind target : Nat) (hi : State.Inv s) :
    (State.runLocate s id kind target).Inv := by
  unfold State.runLocate
  try dsimp only
  repeat' split
  all_goals simp (maxDischargeDepth := 30) [hi]

@[simp] theorem State.runLocateEod_inv (s : State) (id : Nat) (hi : State.Inv s) :
    (State.runLocateEod s id).Inv := by
  unfold State.runLocateEod
  try dsimp only
  repeat' split
  all_goals simp (maxDischargeDepth := 30) [hi]

@[simp] theorem State.runSpace_inv (s : State) (id kind : Nat) (count : Int) (hi : State.Inv s) :
    (State.runSpace s id kind count).Inv := by
  unfold State.runSpace
  try dsimp only
  repeat' split
  all_goals simp (maxDischargeDepth := 30) [hi]

@[simp] theorem State.runMotion_inv (s : State) (t : Taken) (hi : State.Inv s) :
    (State.runMotion s t).Inv := by
  unfold State.runMotion
  try dsimp only
  repeat' split
  all_goals simp (maxDischargeDepth := 30) [hi]

theorem State.serveMotion_inv (s : State) {u : State} (hi : State.Inv s)
    (hu : State.serveMotion s = some u) : u.Inv := by
  revert hu
  unfold State.serveMotion
  try dsimp only
  repeat' split
  all_goals (intro hu; first | (simp at hu; done) | (simp at hu; try subst hu; simp_all (maxDischargeDepth := 30)))

theorem State.join_inv (s : State) (t : Taken) (hi : s.Inv) (hid : t.id = s.ci.nextId)
    (hl : s.ci.outstanding.length < Config.maxOutstanding) : (s.join t).Inv := by
  obtain ⟨h0, ⟨h1, h2, h3, h4, h5⟩, -, hr⟩ := hi
  have add : ∀ (p : Prop) [Decidable p] (l : List Nat), (∀ k ∈ l, k < s.ci.nextId) →
      ∀ k ∈ (if p then l ++ [t.id] else l), k < s.ci.nextId + 1 := by
    intro p _ l hl k hk
    split at hk
    · rcases List.mem_append.1 hk with hk | hk
      · exact Nat.lt_succ_of_lt (hl k hk)
      · simp only [List.mem_singleton] at hk
        omega
    · exact Nat.lt_succ_of_lt (hl k hk)
  refine ⟨h0, ⟨fun u hu => ?_, add _ _ h2, add _ _ h3, fun k hk => Nat.lt_succ_of_lt (h4 k hk),
    fun k hk => Nat.lt_succ_of_lt (h5 k hk)⟩, ?_, hr⟩
  · show u.id < s.ci.nextId + 1
    rcases List.mem_append.1 hu with hu | hu
    · exact Nat.lt_succ_of_lt (h1 u hu)
    · simp only [List.mem_singleton] at hu
      subst hu
      omega
  · show (s.ci.outstanding ++ [t]).length ≤ _
    rw [List.length_append, List.length_singleton]
    exact hl


@[simp] theorem State.takeCmd_inv (s : State) (tag : BitVec 16) (flags : BitVec 8) (malformed : Bool) (cmd : HostCmd)
    (hi : s.Inv) : (s.takeCmd tag flags malformed cmd).Inv := by
  unfold State.takeCmd
  dsimp only
  split
  · exact hi
  · have h1 := State.join_inv s (s.newTaken tag flags malformed cmd) hi rfl (by omega)
    have hid : (s.newTaken tag flags malformed cmd).id < (s.join (s.newTaken tag flags malformed cmd)).ci.nextId :=
      Nat.lt_succ_self _
    split
    · split
      · exact State.runConfig_inv _ _ h1 hid
      · refine ⟨h1.1, ⟨h1.2.1.1, h1.2.1.2.1, h1.2.1.2.2.1, fun k hk => ?_, h1.2.1.2.2.2.2⟩, h1.2.2⟩
        rcases List.mem_append.1 hk with hk | hk
        · exact h1.2.1.2.2.2.1 k hk
        · simp only [List.mem_singleton] at hk
          subst hk
          exact hid
    · exact getD_inv (fun t h => State.serveMotion_inv _ h1 h) h1
    · exact getD_inv (fun t h => State.serveData_inv _ h1 h) h1


theorem State.serveConfig_inv (s : State) {u : State} (hi : s.Inv) (hu : s.serveConfig = some u) : u.Inv := by
  unfold State.serveConfig at hu
  split at hu
  · rename_i t ht
    simp only [Option.some.injEq] at hu
    subst hu
    have hm := List.mem_of_find?_eq_some ht
    obtain ⟨k, hk, hk2⟩ := List.mem_filterMap.1 hm
    have hid : t.id < s.ci.nextId := hi.2.1.1 t (List.mem_of_find?_eq_some hk2)
    exact State.runConfig_inv _ _ (inv_onCi _ hi
      (fun c h => ⟨h.1, h.2.1, h.2.2.1, fun k hk => h.2.2.2.1 k (List.mem_of_mem_filter hk), h.2.2.2.2⟩)
      fun c => le_refl _) hid
  · simp at hu


/-! ### Path -/

@[simp] theorem State.askPost_inv (s : State) (hi : State.Inv s) :
    (State.askPost s).Inv := by
  unfold State.askPost
  try dsimp only
  repeat' split
  all_goals simp (maxDischargeDepth := 30) [hi]

@[simp] theorem State.showCommand_inv (s : State) (a : Access) (hi : State.Inv s) :
    (State.showCommand s a).Inv := by
  unfold State.showCommand
  try dsimp only
  repeat' split
  all_goals simp (maxDischargeDepth := 30) [hi]

@[simp] theorem State.postWrite_inv (s : State) (a : Access) (hi : State.Inv s) :
    (State.postWrite s a).Inv := by
  unfold State.postWrite
  try dsimp only
  repeat' split
  all_goals simp (maxDischargeDepth := 30) [hi]

@[simp] theorem State.holdAccess_inv (s : State) (a : Access) (why : HoldWhy) (i : Nat) (d : Descriptor) (hi : State.Inv s) :
    (State.holdAccess s a why i d).Inv := by
  unfold State.holdAccess
  try dsimp only
  repeat' split
  all_goals simp (maxDischargeDepth := 30) [hi]

theorem State.tryPack_inv (s : State) (a : Access) (d : Descriptor) {u : State} (hi : State.Inv s)
    (hu : State.tryPack s a d = some u) : u.Inv := by
  revert hu
  unfold State.tryPack
  try dsimp only
  repeat' split
  all_goals (intro hu; first | (simp at hu; done) | (simp at hu; try subst hu; simp_all (maxDischargeDepth := 30)))

theorem State.tryUnpack_inv (s : State) (a : Access) (d : Descriptor) {u : State} (hi : State.Inv s)
    (hu : State.tryUnpack s a d = some u) : u.Inv := by
  revert hu
  unfold State.tryUnpack
  try dsimp only
  repeat' split
  all_goals (intro hu; first | (simp at hu; done) | (simp at hu; try subst hu; simp_all (maxDischargeDepth := 30)))

@[simp] theorem State.handPack_inv (s : State) (a : Access) (i : Nat) (d : Descriptor) (hi : s.Inv) :
    (s.handPack a i d).Inv := getD_inv (fun _ h => State.tryPack_inv s a d hi h) (State.holdAccess_inv _ _ _ _ _ hi)


@[simp] theorem State.handUnpack_inv (s : State) (a : Access) (i : Nat) (d : Descriptor) (hi : s.Inv) :
    (s.handUnpack a i d).Inv := getD_inv (fun _ h => State.tryUnpack_inv s a d hi h) (State.holdAccess_inv _ _ _ _ _ hi)


@[simp] theorem State.concern_inv (s : State) (k : RegionKind) (hi : s.Inv) : (s.concern k).Inv := by
  unfold State.concern
  split
  · exact inv_table _ hi (Nat.zero_le _) (Spm.fits_of_free fun _ h => absurd h List.not_mem_nil)
  · exact hi
  · exact hi
  · exact hi
  · exact hi
  all_goals exact hi


@[simp] theorem State.rehold_inv (s : State) (h : Held) (hi : State.Inv s) :
    (State.rehold s h).Inv := by
  unfold State.rehold
  try dsimp only
  repeat' split
  all_goals simp (maxDischargeDepth := 30) [hi]

@[simp] theorem State.reclassify_inv (s : State) (i : Nat) (hi : s.Inv) : (s.reclassify i).Inv :=
  inv_foldl (fun s h hs => State.rehold_inv s h hs) _ ((inv_onBpu _).2 hi)


@[simp] theorem State.captureWrite_inv (s : State) (off : Nat) (bs : List Byte) (hi : State.Inv s) :
    (State.captureWrite s off bs).Inv := by
  unfold State.captureWrite
  try dsimp only
  all_goals simp (maxDischargeDepth := 30) [hi]

@[simp] theorem State.acceptCommit_inv (s : State) (a : Access) (i : Nat) (b : List Byte) (hi : State.Inv s) :
    (State.acceptCommit s a i b).Inv := by
  unfold State.acceptCommit
  try dsimp only
  repeat' split
  all_goals simp (maxDischargeDepth := 30) [hi]

@[simp] theorem State.refuseCommit_inv (s : State) (a : Access) (i code : Nat) (b : List Byte) (hi : State.Inv s) :
    (State.refuseCommit s a i code b).Inv := by
  unfold State.refuseCommit
  try dsimp only
  repeat' split
  all_goals simp (maxDischargeDepth := 30) [hi]

@[simp] theorem State.commit_inv (s : State) (a : Access) (i : Nat) (hi : State.Inv s) :
    (State.commit s a i).Inv := by
  unfold State.commit
  try dsimp only
  repeat' split
  all_goals simp (maxDischargeDepth := 30) [hi]

@[simp] theorem State.captureWord_inv (s : State) (off : Nat) (hi : State.Inv s) :
    (State.captureWord s off).Inv := by
  unfold State.captureWord
  try dsimp only
  repeat' split
  all_goals simp (maxDischargeDepth := 30) [hi]

@[simp] theorem State.mapWrite_inv (s : State) (a : Access) (hi : s.Inv) : (s.mapWrite a).Inv := by
  unfold State.mapWrite
  dsimp only
  split
  · split
    · simp [hi]
    · simp [hi]
  · exact inv_foldl (fun s o hs => State.captureWord_inv s o hs) _ (by simp [hi])


@[simp] theorem State.performAccess_inv (s : State) (a : Access) (hi : State.Inv s) :
    (State.performAccess s a).Inv := by
  unfold State.performAccess
  try dsimp only
  repeat' split
  all_goals simp (maxDischargeDepth := 30) [hi]

@[simp] theorem State.queueAccess_inv (s : State) (a : Access) (hi : State.Inv s) :
    (State.queueAccess s a).Inv := by
  unfold State.queueAccess
  try dsimp only
  all_goals simp (maxDischargeDepth := 30) [hi]

@[simp] theorem State.regionWrite_inv (s : State) (a : Access) (i : Nat) (d : Descriptor) (hi : State.Inv s) :
    (State.regionWrite s a i d).Inv := by
  unfold State.regionWrite
  try dsimp only
  repeat' split
  all_goals simp (maxDischargeDepth := 30) [hi]

@[simp] theorem State.mapAccess_inv (s : State) (a : Access) (hi : State.Inv s) :
    (State.mapAccess s a).Inv := by
  unfold State.mapAccess
  try dsimp only
  repeat' split
  all_goals simp (maxDischargeDepth := 30) [hi]

@[simp] theorem State.route_inv (s : State) (a : Access) (hi : State.Inv s) :
    (State.route s a).Inv := by
  unfold State.route
  try dsimp only
  repeat' split
  all_goals simp (maxDischargeDepth := 30) [hi]

@[simp] theorem State.clearAnswer_inv (s : State) (who : Initiator) (hi : State.Inv s) :
    (State.clearAnswer s who).Inv := by
  unfold State.clearAnswer
  try dsimp only
  repeat' split
  all_goals simp (maxDischargeDepth := 30) [hi]

@[simp] theorem State.arriveAt_inv (s : State) (a : Access) (hi : State.Inv s) :
    (State.arriveAt s a).Inv := by
  unfold State.arriveAt
  try dsimp only
  repeat' split
  all_goals simp (maxDischargeDepth := 30) [hi]

@[simp] theorem State.unhold_inv (s : State) (h : Held) (hi : State.Inv s) :
    (State.unhold s h).Inv := by
  unfold State.unhold
  try dsimp only
  all_goals simp (maxDischargeDepth := 30) [hi]

theorem State.reexamine_inv (s : State) (x : Held) {t : State} (hi : s.Inv) (h : State.reexamine s x = some t) : t.Inv := by
  have h1 : (s.unhold x).Inv := State.unhold_inv s x hi
  unfold State.reexamine at h
  dsimp only at h
  split at h
  · split at h <;> simp at h
    subst h
    exact State.route_inv _ _ h1
  · simp only [Option.map_eq_some_iff] at h
    obtain ⟨_, _, rfl⟩ := h
    exact State.postWrite_inv _ _ h1
  · simp only [Option.bind_eq_some_iff] at h
    obtain ⟨_, _, h⟩ := h
    exact State.tryPack_inv _ _ _ h1 h
  · simp only [Option.bind_eq_some_iff] at h
    obtain ⟨_, _, h⟩ := h
    exact State.tryUnpack_inv _ _ _ h1 h


theorem State.releaseHeld_inv (s : State) {t : State} (hi : s.Inv) (h : State.releaseHeld s = some t) : t.Inv := by
  obtain ⟨x, _, h⟩ := List.exists_of_findSome?_eq_some h
  exact State.reexamine_inv s x hi h


/-! ### Port -/

@[simp] theorem State.channelTakes_inv (s : State) (n : Nat) (hi : State.Inv s) :
    (State.channelTakes s n).Inv := by
  unfold State.channelTakes
  try dsimp only
  repeat' split
  all_goals simp (maxDischargeDepth := 30) [hi]

@[simp] theorem State.channelDelivers_inv (s : State) (bytes : List Byte) (hi : State.Inv s) :
    (State.channelDelivers s bytes).Inv := by
  unfold State.channelDelivers
  try dsimp only
  repeat' split
  all_goals simp (maxDischargeDepth := 30) [hi]

@[simp] theorem State.channelFlow_inv (s : State) (z : ChannelFlow) (hi : State.Inv s) :
    (State.channelFlow s z).Inv := by
  unfold State.channelFlow
  try dsimp only
  repeat' split
  all_goals simp (maxDischargeDepth := 30) [hi]

@[simp] theorem State.doTteWork_inv (s : State) (z : TteWork) (hi : State.Inv s) :
    (State.doTteWork s z).Inv := by
  unfold State.doTteWork
  try dsimp only
  repeat' split
  all_goals simp (maxDischargeDepth := 30) [hi]

@[simp] theorem State.countGrant_inv (s : State) (r : Requester) (hi : State.Inv s) :
    (State.countGrant s r).Inv := by
  unfold State.countGrant
  try dsimp only
  all_goals simp (maxDischargeDepth := 30) [hi]

@[simp] theorem State.dropCounts_inv (s : State) (hi : State.Inv s) :
    (State.dropCounts s).Inv := by
  unfold State.dropCounts
  try dsimp only
  repeat' split
  all_goals simp (maxDischargeDepth := 30) [hi]

@[simp] theorem State.rewritten_inv (s : State) (hi : State.Inv s) :
    (State.rewritten s).Inv := by
  unfold State.rewritten
  try dsimp only
  all_goals simp (maxDischargeDepth := 30) [hi]

@[simp] theorem State.writeRecord_inv (s : State) (hi : s.Inv) : (s.writeRecord).Inv := by
  unfold State.writeRecord
  dsimp only
  repeat' split
  · exact hi
  · exact hi
  · exact State.askStatus_inv _ ((inv_onCw _).2 ((inv_free _).2 (inv_writeBytes _ _ ((inv_onCw _).2 hi))))


@[simp] theorem State.raiseTail_inv (s : State) (hi : s.Inv) : (s.raiseTail).Inv := by
  unfold State.raiseTail
  dsimp only
  repeat' split
  all_goals first
    | exact hi
    | exact State.askPost_inv _ (inv_onCi _ ((inv_onCw _).2 hi)
        (fun c h => ⟨fun t ht => h.1 t (List.mem_of_mem_filter ht), h.2⟩) fun c => List.length_filter_le _ _)


@[simp] theorem State.writeStatus_inv (s : State) (hi : State.Inv s) :
    (State.writeStatus s).Inv := by
  unfold State.writeStatus
  try dsimp only
  all_goals simp (maxDischargeDepth := 30) [hi]

@[simp] theorem State.readPostWord_inv (s : State) (hi : State.Inv s) :
    (State.readPostWord s).Inv := by
  unfold State.readPostWord
  try dsimp only
  repeat' split
  all_goals simp (maxDischargeDepth := 30) [hi]

@[simp] theorem State.takeSlot_inv (s : State) (hi : s.Inv) : (s.takeSlot).Inv := by
  unfold State.takeSlot
  dsimp only
  split
  · exact hi
  · exact State.takeCmd_inv _ _ _ _ _ (State.askPost_inv _ (inv_onCi _ (State.askRing_inv _ _ hi) (fun c h => h)
      fun c => le_refl _))


@[simp] theorem State.clearPostWord_inv (s : State) (a : Nat) (bytes : List Byte) (hi : State.Inv s) :
    (State.clearPostWord s a bytes).Inv := by
  unfold State.clearPostWord
  try dsimp only
  all_goals simp (maxDischargeDepth := 30) [hi]

@[simp] theorem State.doRing_inv (s : State) (z : RingReq) (hi : State.Inv s) :
    (State.doRing s z).Inv := by
  unfold State.doRing
  try dsimp only
  repeat' split
  all_goals simp (maxDischargeDepth := 30) [hi]

@[simp] theorem State.doUpstream_inv (s : State) (hi : State.Inv s) :
    (State.doUpstream s).Inv := by
  unfold State.doUpstream
  try dsimp only
  repeat' split
  all_goals simp (maxDischargeDepth := 30) [hi]

@[simp] theorem State.doOldestRing_inv (s : State) (hi : State.Inv s) :
    (State.doOldestRing s).Inv := by
  unfold State.doOldestRing
  try dsimp only
  repeat' split
  all_goals simp (maxDischargeDepth := 30) [hi]

@[simp] theorem State.serve_inv (s : State) (r : Requester) (hi : s.Inv) : (s.serve r).Inv := by
  unfold State.serve
  split
  · cases h : s.tteWork <;> simp [hi]
  · simp [hi]
  · cases h : s.packWork <;> simp [hi]
  · cases h : s.unpackWork <;> simp [hi]
  · simp [hi]


@[simp] theorem State.grant_inv (s : State) (r : Requester) (hi : State.Inv s) :
    (State.grant s r).Inv := by
  unfold State.grant
  try dsimp only
  all_goals simp (maxDischargeDepth := 30) [hi]

@[simp] theorem State.grantAtOnce_inv (s : State) (a : Access) (hi : State.Inv s) :
    (State.grantAtOnce s a).Inv := by
  unfold State.grantAtOnce
  try dsimp only
  repeat' split
  all_goals simp (maxDischargeDepth := 30) [hi]

/-! ### Settle -/

theorem State.reactItem_inv (s : State) {u : State} (hi : State.Inv s)
    (hu : State.reactItem s = some u) : u.Inv := by
  revert hu
  unfold State.reactItem
  try dsimp only
  repeat' split
  all_goals (intro hu; first | (simp at hu; done) | (simp at hu; try subst hu; simp_all (maxDischargeDepth := 30)))

theorem State.reactEmit_inv (s : State) {u : State} (hi : State.Inv s)
    (hu : State.reactEmit s = some u) : u.Inv := by
  revert hu
  unfold State.reactEmit
  try dsimp only
  repeat' split
  all_goals (intro hu; first | (simp at hu; done) | (simp at hu; try subst hu; simp_all (maxDischargeDepth := 30)))

@[simp] theorem State.endSync_inv (s : State) (id : Nat) (r : Result) (hi : State.Inv s) :
    (State.endSync s id r).Inv := by
  unfold State.endSync
  try dsimp only
  all_goals simp (maxDischargeDepth := 30) [hi]

theorem State.reactSync_inv (s : State) {u : State} (hi : State.Inv s)
    (hu : State.reactSync s = some u) : u.Inv := by
  revert hu
  unfold State.reactSync
  try dsimp only
  repeat' split
  all_goals (intro hu; first | (simp at hu; done) | (simp at hu; try subst hu; simp_all (maxDischargeDepth := 30)))

theorem State.reactSlot_inv (s : State) {t : State} (hi : s.Inv) (h : State.reactSlot s = some t) : t.Inv := by
  unfold State.reactSlot at h
  split at h
  · split at h
    · simp only [Option.map_eq_some_iff] at h
      obtain ⟨_, _, rfl⟩ := h
      exact State.placeMarker_inv _ _ hi
    · split at h
      · simp only [Option.map_eq_some_iff] at h
        obtain ⟨_, _, rfl⟩ := h
        exact State.askSlot_inv _ _ hi
      · simp at h
  · simp at h


theorem State.reactAsk_inv (s : State) {u : State} (hi : State.Inv s)
    (hu : State.reactAsk s = some u) : u.Inv := by
  revert hu
  unfold State.reactAsk
  try dsimp only
  repeat' split
  all_goals (intro hu; first | (simp at hu; done) | (simp at hu; try subst hu; simp_all (maxDischargeDepth := 30)))

theorem State.reactStreamOver_inv (s : State) {u : State} (hi : State.Inv s)
    (hu : State.reactStreamOver s = some u) : u.Inv := by
  revert hu
  unfold State.reactStreamOver
  try dsimp only
  repeat' split
  all_goals (intro hu; first | (simp at hu; done) | (simp at hu; try subst hu; simp_all (maxDischargeDepth := 30)))

theorem State.reactCleared_inv (s : State) {u : State} (hi : State.Inv s)
    (hu : State.reactCleared s = some u) : u.Inv := by
  unfold State.reactCleared at hu
  split at hu
  · next h =>
    obtain rfl := Option.some.inj hu
    exact State.leaveWrite_inv _ (State.abortPack_inv _ hi)
      (by rw [State.abortPack_spm]; exact hi.2.2.2.2.2.2.write h.2.1 h.2.2.1)
  · simp at hu

theorem State.reactAborts_inv (s : State) {u : State} (hi : State.Inv s)
    (hu : State.reactAborts s = some u) : u.Inv := by
  revert hu
  unfold State.reactAborts
  try dsimp only
  repeat' split
  all_goals (intro hu; first | (simp at hu; done) | (simp at hu; try subst hu; simp_all (maxDischargeDepth := 30)))

theorem State.unloadEmptying_inv (s : State) (j : Job) {u : State} (hi : State.Inv s)
    (hu : State.unloadEmptying s j = some u) : u.Inv := by
  unfold State.unloadEmptying at hu
  repeat' split at hu
  all_goals first
    | (simp at hu; done)
    | (obtain rfl := Option.some.inj hu)
  all_goals first
    | (next hd h =>
        simp only [Bool.and_eq_true] at h
        exact State.leaveWrite_inv _ hi (hi.2.2.2.2.2.2.write (by rw [hd]; decide) h.1.1))
    | simp (maxDischargeDepth := 30) [hi]

theorem State.reactLoad_inv (s : State) {t : State} (hi : s.Inv) (h : State.reactLoad s = some t) : t.Inv := by
  unfold State.reactLoad at h
  repeat' split at h
  all_goals first
    | (simp at h; done)
    | (cases h; simp (maxDischargeDepth := 30) [hi])

theorem State.reactUnload_inv (s : State) {t : State} (hi : s.Inv) (h : State.reactUnload s = some t) : t.Inv := by
  unfold State.reactUnload at h
  repeat' split at h
  all_goals first
    | (simp at h; done)
    | exact State.unloadEmptying_inv _ _ hi h
    | (simp at h; subst h; simp (maxDischargeDepth := 30) [hi])


theorem State.react_inv (s : State) {t : State} (hi : s.Inv) (h : State.react s = some t) : t.Inv := by
  obtain ⟨f, hf, h⟩ := List.exists_of_findSome?_eq_some h
  simp only [List.mem_cons, List.not_mem_nil, or_false] at hf
  obtain rfl | rfl | rfl | rfl | rfl | rfl | rfl | rfl | rfl | rfl | rfl | rfl | rfl | rfl := hf
  exacts [State.releaseHeld_inv s hi h, State.reactItem_inv s hi h, State.reactEmit_inv s hi h,
    State.reactSync_inv s hi h, State.reactSlot_inv s hi h, State.reactAsk_inv s hi h, State.serveData_inv s hi h,
    State.reactStreamOver_inv s hi h, State.reactCleared_inv s hi h, State.reactAborts_inv s hi h,
    State.reactLoad_inv s hi h, State.reactUnload_inv s hi h, State.serveConfig_inv s hi h,
    State.serveMotion_inv s hi h]


@[simp] theorem State.settle_inv : ∀ (n : Nat) (s : State), s.Inv → (State.settle n s).Inv
  | 0, _, hi => hi
  | n + 1, s, hi => by
    unfold State.settle
    split
    · next t h => exact State.settle_inv n t (State.react_inv s hi h)
    · exact hi


@[simp] theorem State.finish_inv (s : State) (hi : State.Inv s) :
    (State.finish s).Inv := by
  unfold State.finish
  try dsimp only
  all_goals simp (maxDischargeDepth := 30) [hi]

@[simp] theorem State.arrive_inv (s : State) (a : Access) (hi : State.Inv s) :
    (State.arrive s a).Inv := by
  unfold State.arrive
  try dsimp only
  repeat' split
  all_goals simp (maxDischargeDepth := 30) [hi]

/-! ### Clock -/

@[simp] theorem State.elapse_inv (s : State) (n : Nat) (hi : s.Inv) : (s.elapse n).Inv := hi


/-! ### Commands -/

@[simp] theorem State.command_inv (s : State) (tag : BitVec 16) (flags : BitVec 8) (cmd : HostCmd) (hi : State.Inv s) :
    (State.command s tag flags cmd).Inv := by
  unfold State.command
  try dsimp only
  all_goals simp (maxDischargeDepth := 30) [hi]

@[simp] theorem State.takeSpeed_inv (s : State) (hi : State.Inv s) :
    (State.takeSpeed s).Inv := by
  unfold State.takeSpeed
  try dsimp only
  all_goals simp (maxDischargeDepth := 30) [hi]

/-! ### Marks -/

@[simp] theorem State.startWriting_inv (s : State) (hi : State.Inv s) :
    (State.startWriting s).Inv := by
  unfold State.startWriting
  try dsimp only
  repeat' split
  all_goals simp (maxDischargeDepth := 30) [hi]

@[simp] theorem State.startReception_inv (s : State) (x : Reception) (hi : State.Inv s) :
    (State.startReception s x).Inv := by
  unfold State.startReception
  try dsimp only
  all_goals simp (maxDischargeDepth := 30) [hi]

@[simp] theorem State.startReading_inv (s : State) (hi : State.Inv s) :
    (State.startReading s).Inv := by
  unfold State.startReading
  try dsimp only
  repeat' split
  all_goals simp (maxDischargeDepth := 30) [hi]

@[simp] theorem State.atStartMark_inv (s : State) (hi : State.Inv s) :
    (State.atStartMark s).Inv := by
  unfold State.atStartMark
  try dsimp only
  repeat' split
  all_goals simp (maxDischargeDepth := 30) [hi]

@[simp] theorem State.endWritingPass_inv (s : State) (p : TapePos) (hi : State.Inv s) :
    (State.endWritingPass s p).Inv := by
  unfold State.endWritingPass
  try dsimp only
  repeat' split
  all_goals simp (maxDischargeDepth := 30) [hi]

@[simp] theorem State.endReadingPass_inv (s : State) (p : TapePos) (hi : State.Inv s) :
    (State.endReadingPass s p).Inv := by
  unfold State.endReadingPass
  try dsimp only
  repeat' split
  all_goals simp (maxDischargeDepth := 30) [hi]

@[simp] theorem State.endSearchPass_inv (s : State) (p : TapePos) (hi : State.Inv s) :
    (State.endSearchPass s p).Inv := by
  unfold State.endSearchPass
  try dsimp only
  repeat' split
  all_goals simp (maxDischargeDepth := 30) [hi]

@[simp] theorem State.atPassEnd_inv (s : State) (p : TapePos) (hi : State.Inv s) :
    (State.atPassEnd s p).Inv := by
  unfold State.atPassEnd
  try dsimp only
  repeat' split
  all_goals simp (maxDischargeDepth := 30) [hi]

@[simp] theorem State.matches__inv (s : State) (hi : State.Inv s) :
    (State.matches_ s).Inv := by
  unfold State.matches_
  try dsimp only
  repeat' split
  all_goals simp (maxDischargeDepth := 30) [hi]

@[simp] theorem State.mark_inv (s : State) (hi : State.Inv s) :
    (State.mark s).Inv := by
  unfold State.mark
  try dsimp only
  all_goals simp (maxDischargeDepth := 30) [hi]

@[simp] theorem State.firstSpeedFault_inv (s : State) (hi : State.Inv s) :
    (State.firstSpeedFault s).Inv := by
  unfold State.firstSpeedFault
  try dsimp only
  repeat' split
  all_goals simp (maxDischargeDepth := 30) [hi]

/-! ### Motion -/

@[simp] theorem State.writeOn_inv (s : State) (hi : State.Inv s) :
    (State.writeOn s).Inv := by
  unfold State.writeOn
  try dsimp only
  repeat' split
  all_goals simp (maxDischargeDepth := 30) [hi]

@[simp] theorem State.readOn_inv (s : State) (r : ReadState) (hi : State.Inv s) :
    (State.readOn s r).Inv := by
  unfold State.readOn
  try dsimp only
  repeat' split
  all_goals simp (maxDischargeDepth := 30) [hi]

@[simp] theorem State.turned_inv (s : State) (hi : State.Inv s) :
    (State.turned s).Inv := by
  unfold State.turned
  try dsimp only
  repeat' split
  all_goals simp (maxDischargeDepth := 30) [hi]

@[simp] theorem State.resumeJob_inv (s : State) (j : Job) (hi : State.Inv s) :
    (State.resumeJob s j).Inv := by
  unfold State.resumeJob
  try dsimp only
  repeat' split
  all_goals simp (maxDischargeDepth := 30) [hi]

@[simp] theorem State.jobStopped_inv (s : State) (j : Job) (hi : State.Inv s) :
    (State.jobStopped s j).Inv := by
  unfold State.jobStopped
  try dsimp only
  repeat' split
  all_goals simp (maxDischargeDepth := 30) [hi]

@[simp] theorem State.stopped_inv (s : State) (hi : State.Inv s) :
    (State.stopped s).Inv := by
  unfold State.stopped
  try dsimp only
  repeat' split
  all_goals simp (maxDischargeDepth := 30) [hi]

/-! ### Reading -/

@[simp] theorem State.askMarker_inv (s : State) (hi : State.Inv s) :
    (State.askMarker s).Inv := by
  unfold State.askMarker
  try dsimp only
  repeat' split
  all_goals simp (maxDischargeDepth := 30) [hi]

end Sys2Proof.Machine
end

