-- ==== Sys2Proof/Laws/Rest.lean ====
section
/-! SUPPORT. The operations that write neither memory nor the queue: one lemma each. -/

namespace Sys2Proof.Machine

/-- Both memories and the queue of commands. -/
def State.rest (s : State) : List Host.Cell × List Host.Cell × List Instr := (s.dram, s.cartridge, s.pending)

@[simp] theorem State.onPins_rest (s : State) (f : Pins → Pins) : (s.onPins f).rest = s.rest := rfl
@[simp] theorem State.onBpu_rest (s : State) (f : Bpu → Bpu) : (s.onBpu f).rest = s.rest := rfl
@[simp] theorem State.onCi_rest (s : State) (f : Ci → Ci) : (s.onCi f).rest = s.rest := rfl
@[simp] theorem State.onCw_rest (s : State) (f : Cw → Cw) : (s.onCw f).rest = s.rest := rfl
@[simp] theorem State.onPe_rest (s : State) (f : Pe → Pe) : (s.onPe f).rest = s.rest := rfl
@[simp] theorem State.onSpm_rest (s : State) (f : Spm → Spm) : (s.onSpm f).rest = s.rest := rfl
@[simp] theorem State.onTte_rest (s : State) (f : Tte → Tte) : (s.onTte f).rest = s.rest := rfl
@[simp] theorem State.onUe_rest (s : State) (f : Ue → Ue) : (s.onUe f).rest = s.rest := rfl
@[simp] theorem State.onRg_rest (s : State) (f : Rg → Rg) : (s.onRg f).rest = s.rest := rfl
@[simp] theorem State.onMc_rest (s : State) (f : Mc → Mc) : (s.onMc f).rest = s.rest := rfl
@[simp] theorem State.onCml_rest (s : State) (f : Cml → Cml) : (s.onCml f).rest = s.rest := rfl
@[simp] theorem State.onSs_rest (s : State) (f : Ss → Ss) : (s.onSs f).rest = s.rest := rfl
@[simp] theorem State.onHm_rest (s : State) (f : Hm → Hm) : (s.onHm f).rest = s.rest := rfl
@[simp] theorem State.free_rest (s : State) (n : Nat) : ({ s with free := n } : State).rest = s.rest := rfl

@[simp] theorem foldl_rest {α : Type} (g : State → α → State) (h : ∀ s a, (g s a).rest = s.rest) :
    ∀ (l : List α) (s : State), (l.foldl g s).rest = s.rest
  | [], _ => rfl
  | a :: l, s => by rw [List.foldl_cons, foldl_rest g h l, h]

theorem getD_rest {o : Option State} {s d : State} (h : ∀ t, o = some t → t.rest = s.rest) (hd : d.rest = s.rest) :
    (o.getD d).rest = s.rest := by
  cases o with
  | none => exact hd
  | some t => exact h t rfl

/-! ### Ops -/

@[simp] theorem State.answer_rest (s : State) (who : Initiator) (okay : Bool) (bytes : List Byte) :
    (State.answer s who okay bytes).rest = s.rest := by
  unfold State.answer
  try dsimp only
  repeat' split
  all_goals simp

@[simp] theorem State.answerError_rest (s : State) (a : Access) :
    (State.answerError s a).rest = s.rest := by
  unfold State.answerError
  try dsimp only
  repeat' split
  all_goals simp

@[simp] theorem State.askRing_rest (s : State) (r : RingReq) :
    (State.askRing s r).rest = s.rest := by
  unfold State.askRing
  try dsimp only
  all_goals simp

@[simp] theorem State.askStatus_rest (s : State) :
    (State.askStatus s).rest = s.rest := by
  unfold State.askStatus
  try dsimp only
  repeat' split
  all_goals simp

@[simp] theorem State.noticeStatus_rest (s : State) :
    (State.noticeStatus s).rest = s.rest := by
  unfold State.noticeStatus
  try dsimp only
  repeat' split
  all_goals simp

@[simp] theorem State.judgeAttn_rest (s : State) :
    (State.judgeAttn s).rest = s.rest := by
  unfold State.judgeAttn
  try dsimp only
  all_goals simp

@[simp] theorem State.tryRecord_rest (s : State) :
    (State.tryRecord s).rest = s.rest := by
  unfold State.tryRecord
  try dsimp only
  repeat' split
  all_goals simp

@[simp] theorem State.complete_rest (s : State) (id : Nat) (r : Result) (a b : Detail) :
    (State.complete s id r a b).rest = s.rest := by
  unfold State.complete
  try dsimp only
  repeat' split
  all_goals simp

@[simp] theorem State.completeBare_rest (s : State) (id : Nat) (r : Result) :
    (State.completeBare s id r).rest = s.rest := by
  unfold State.completeBare
  try dsimp only
  all_goals simp

@[simp] theorem State.note_rest (s : State) (k : NoteKind) (a b : Detail) :
    (State.note s k a b).rest = s.rest := by
  unfold State.note
  try dsimp only
  repeat' split
  all_goals simp

@[simp] theorem State.setStage_rest (s : State) (id : Nat) (g : Stage) :
    (State.setStage s id g).rest = s.rest := by
  unfold State.setStage
  try dsimp only
  all_goals simp

@[simp] theorem State.enterHealth_rest (s : State) (h : Health) (cause : Nat) :
    (State.enterHealth s h cause).rest = s.rest := by
  unfold State.enterHealth
  try dsimp only
  repeat' split
  all_goals simp

@[simp] theorem State.setIndex_rest (s : State) (ci cause : Nat) :
    (State.setIndex s ci cause).rest = s.rest := by
  unfold State.setIndex
  try dsimp only
  all_goals simp

@[simp] theorem State.score_rest (s : State) (verify needs : Bool) (counts : Option Counts) (stripe : Nat) :
    (State.score s verify needs counts stripe).rest = s.rest := by
  unfold State.score
  try dsimp only
  all_goals simp

@[simp] theorem State.markWear_rest (s : State) :
    (State.markWear s).rest = s.rest := by
  unfold State.markWear
  try dsimp only
  all_goals simp

@[simp] theorem State.sampleRate_rest (s : State) :
    (State.sampleRate s).rest = s.rest := by
  unfold State.sampleRate
  try dsimp only
  all_goals simp

@[simp] theorem State.openRate_rest (s : State) :
    (State.openRate s).rest = s.rest := by
  unfold State.openRate
  try dsimp only
  all_goals simp

/-! ### Directory -/

@[simp] theorem State.applyStripe_rest (s : State) (x : StripeDone) :
    (State.applyStripe s x).rest = s.rest := by
  unfold State.applyStripe
  try dsimp only
  all_goals simp

@[simp] theorem State.truncateDirectory_rest (s : State) (stripe record : Nat) (w : TapePos) :
    (State.truncateDirectory s stripe record w).rest = s.rest := by
  unfold State.truncateDirectory
  try dsimp only
  all_goals simp

@[simp] theorem State.rebuildDirectory_rest (s : State) :
    (State.rebuildDirectory s).rest = s.rest := by
  unfold State.rebuildDirectory
  try dsimp only
  all_goals simp

@[simp] theorem State.recoverDirectory_rest (s : State) (highest : Nat) :
    (State.recoverDirectory s highest).rest = s.rest := by
  unfold State.recoverDirectory
  try dsimp only
  all_goals simp

@[simp] theorem State.positionAtEnd_rest (s : State) :
    (State.positionAtEnd s).rest = s.rest := by
  unfold State.positionAtEnd
  try dsimp only
  repeat' split
  all_goals simp

/-! ### Pool -/

@[simp] theorem State.setSlot_rest (s : State) (i : Nat) (f : Slot → Slot) :
    (State.setSlot s i f).rest = s.rest := by
  unfold State.setSlot
  try dsimp only
  all_goals simp

@[simp] theorem State.moveSlot_rest (s : State) (i : Nat) (old new : SlotState) (f : Slot → Slot) :
    (State.moveSlot s i old new f).rest = s.rest := by
  unfold State.moveSlot
  try dsimp only
  repeat' split
  all_goals simp

@[simp] theorem State.freeSlot_rest (s : State) (i : Nat) :
    (State.freeSlot s i).rest = s.rest := by
  unfold State.freeSlot
  try dsimp only
  all_goals simp

@[simp] theorem State.freeAll_rest (s : State) (ok : Slot → Bool) :
    (State.freeAll s ok).rest = s.rest := by
  unfold State.freeAll
  try dsimp only
  all_goals simp

@[simp] theorem State.withdrawBare_rest (s : State) (i : Nat) :
    (State.withdrawBare s i).rest = s.rest := by
  unfold State.withdrawBare
  try dsimp only
  repeat' split
  all_goals simp

@[simp] theorem State.triggerSeal_rest (s : State) :
    (State.triggerSeal s).rest = s.rest := by
  unfold State.triggerSeal
  try dsimp only
  repeat' split
  all_goals simp

@[simp] theorem State.sealDone_rest (s : State) (i : Nat) :
    (State.sealDone s i).rest = s.rest := by
  unfold State.sealDone
  try dsimp only
  repeat' split
  all_goals simp

@[simp] theorem State.completeIntake_rest (s : State) (cs : List IntakeCmd) (r : Result) :
    (State.completeIntake s cs r).rest = s.rest := by
  unfold State.completeIntake
  try dsimp only
  all_goals simp

@[simp] theorem State.abortPack_rest (s : State) :
    (State.abortPack s).rest = s.rest := by
  unfold State.abortPack
  try dsimp only
  all_goals simp

@[simp] theorem State.enterWriteFailed_rest (s : State) (cause : Cause) :
    (State.enterWriteFailed s cause).rest = s.rest := by
  unfold State.enterWriteFailed
  try dsimp only
  repeat' split
  all_goals simp

@[simp] theorem State.leaveWrite_rest (s : State) :
    (State.leaveWrite s).rest = s.rest := by
  unfold State.leaveWrite
  try dsimp only
  all_goals simp

@[simp] theorem State.freeVerified_rest : ∀ (n : Nat) (s : State), (State.freeVerified n s).rest = s.rest
  | 0, _ => rfl
  | n + 1, s => by
    unfold State.freeVerified
    dsimp only
    repeat' split
    all_goals simp [State.freeVerified_rest n]


@[simp] theorem State.sweepDropped_rest (s : State) :
    (State.sweepDropped s).rest = s.rest := by
  unfold State.sweepDropped
  try dsimp only
  repeat' split
  all_goals simp

@[simp] theorem State.freeRun_rest (s : State) :
    (State.freeRun s).rest = s.rest := by
  unfold State.freeRun
  try dsimp only
  all_goals simp

@[simp] theorem State.clearWrite_rest (s : State) :
    (State.clearWrite s).rest = s.rest := by
  unfold State.clearWrite
  try dsimp only
  all_goals simp

/-! ### Pack -/

@[simp] theorem State.beginEntry_rest (s : State) (i : Nat) :
    (State.beginEntry s i).rest = s.rest := by
  unfold State.beginEntry
  try dsimp only
  all_goals simp

@[simp] theorem State.tryBegin_rest (s : State) :
    (State.tryBegin s).rest = s.rest := by
  unfold State.tryBegin
  try dsimp only
  repeat' split
  all_goals simp

@[simp] theorem State.takeFilling_rest (s : State) (i : Nat) :
    (State.takeFilling s i).rest = s.rest := by
  unfold State.takeFilling
  try dsimp only
  all_goals simp

@[simp] theorem State.endCommand_rest (s : State) (c : IntakeCmd) :
    (State.endCommand s c).rest = s.rest := by
  unfold State.endCommand
  try dsimp only
  repeat' split
  all_goals simp

@[simp] theorem State.itemDone_rest (s : State) :
    (State.itemDone s).rest = s.rest := by
  unfold State.itemDone
  try dsimp only
  repeat' split
  all_goals simp

/-! ### Move -/

@[simp] theorem State.reposition_rest (s : State) :
    (State.reposition s).rest = s.rest := by
  unfold State.reposition
  try dsimp only
  all_goals simp

@[simp] theorem State.evaluate_rest (s : State) :
    (State.evaluate s).rest = s.rest := by
  unfold State.evaluate
  try dsimp only
  all_goals simp

/-! ### Transfer -/

@[simp] theorem State.judgeGood_rest (s : State) (i : Nat) (c : Counts) :
    (State.judgeGood s i c).rest = s.rest := by
  unfold State.judgeGood
  try dsimp only
  all_goals simp

@[simp] theorem State.raiseIndex_rest (s : State) :
    (State.raiseIndex s).rest = s.rest := by
  unfold State.raiseIndex
  try dsimp only
  all_goals simp

@[simp] theorem State.permanentFailure_rest (s : State) (i : Nat) (c : Option Counts) :
    (State.permanentFailure s i c).rest = s.rest := by
  unfold State.permanentFailure
  try dsimp only
  repeat' split
  all_goals simp

@[simp] theorem State.dropSlot_rest (s : State) (i : Nat) :
    (State.dropSlot s i).rest = s.rest := by
  unfold State.dropSlot
  try dsimp only
  all_goals simp

@[simp] theorem State.judgeFailed_rest (s : State) (i : Nat) (c : Option Counts) :
    (State.judgeFailed s i c).rest = s.rest := by
  unfold State.judgeFailed
  try dsimp only
  repeat' split
  all_goals simp

@[simp] theorem State.deadline_rest (s : State) :
    (State.deadline s).rest = s.rest := by
  unfold State.deadline
  try dsimp only
  repeat' split
  all_goals simp

@[simp] theorem State.mediaEnd_rest (s : State) :
    (State.mediaEnd s).rest = s.rest := by
  unfold State.mediaEnd
  try dsimp only
  all_goals simp

@[simp] theorem State.runOnNow_rest (s : State) (marks : Nat) :
    (State.runOnNow s marks).rest = s.rest := by
  unfold State.runOnNow
  try dsimp only
  all_goals simp

@[simp] theorem State.runOver_rest (s : State) (marks : Nat) :
    (State.runOver s marks).rest = s.rest := by
  unfold State.runOver
  try dsimp only
  all_goals simp

@[simp] theorem State.turnWriting_rest (s : State) :
    (State.turnWriting s).rest = s.rest := by
  unfold State.turnWriting
  try dsimp only
  repeat' split
  all_goals simp

@[simp] theorem State.writeTurn_rest (s : State) (p : TapePos) :
    (State.writeTurn s p).rest = s.rest := by
  unfold State.writeTurn
  try dsimp only
  all_goals simp

@[simp] theorem State.returnInFlight_rest (s : State) :
    (State.returnInFlight s).rest = s.rest := by
  unfold State.returnInFlight
  try dsimp only
  repeat' split
  all_goals simp

@[simp] theorem State.channelEnd_rest (s : State) :
    (State.channelEnd s).rest = s.rest := by
  unfold State.channelEnd
  try dsimp only
  repeat' split
  all_goals simp

@[simp] theorem State.cutWriting_rest (s : State) :
    (State.cutWriting s).rest = s.rest := by
  unfold State.cutWriting
  try dsimp only
  all_goals simp

@[simp] theorem State.startTransfer_rest (s : State) (f : InFlight) :
    (State.startTransfer s f).rest = s.rest := by
  unfold State.startTransfer
  try dsimp only
  repeat' split
  all_goals simp

@[simp] theorem State.countEnd_rest (s : State) (f : InFlight) :
    (State.countEnd s f).rest = s.rest := by
  unfold State.countEnd
  try dsimp only
  all_goals simp

@[simp] theorem State.endRunOn_rest (s : State) :
    (State.endRunOn s).rest = s.rest := by
  unfold State.endRunOn
  try dsimp only
  repeat' split
  all_goals simp

@[simp] theorem State.openSession_rest (s : State) (id : Nat) :
    (State.openSession s id).rest = s.rest := by
  unfold State.openSession
  try dsimp only
  repeat' split
  all_goals simp

@[simp] theorem State.abortWrite_rest (s : State) :
    (State.abortWrite s).rest = s.rest := by
  unfold State.abortWrite
  try dsimp only
  repeat' split
  all_goals simp

/-! ### Readback -/

@[simp] theorem State.onRead_rest (s : State) (f : ReadState → ReadState) :
    (State.onRead s f).rest = s.rest := by
  unfold State.onRead
  try dsimp only
  all_goals simp

@[simp] theorem State.abandonReception_rest (s : State) :
    (State.abandonReception s).rest = s.rest := by
  unfold State.abandonReception
  try dsimp only
  repeat' split
  all_goals simp

@[simp] theorem State.readReposition_rest (s : State) (kind : StopKind) (ask : ReadAsk) :
    (State.readReposition s kind ask).rest = s.rest := by
  unfold State.readReposition
  try dsimp only
  all_goals simp

@[simp] theorem State.startRead_rest (s : State) (p : TapePos) :
    (State.startRead s p).rest = s.rest := by
  unfold State.startRead
  try dsimp only
  all_goals simp

@[simp] theorem State.beginRead_rest (s : State) :
    (State.beginRead s).rest = s.rest := by
  unfold State.beginRead
  try dsimp only
  repeat' split
  all_goals simp

@[simp] theorem State.formRead_rest (s : State) (p : DsPos) :
    (State.formRead s p).rest = s.rest := by
  unfold State.formRead
  try dsimp only
  repeat' split
  all_goals simp

@[simp] theorem State.clearRead_rest (s : State) (gone : Bool) :
    (State.clearRead s gone).rest = s.rest := by
  unfold State.clearRead
  try dsimp only
  repeat' split
  all_goals simp

@[simp] theorem State.leaveRead_rest (s : State) :
    (State.leaveRead s).rest = s.rest := by
  unfold State.leaveRead
  try dsimp only
  all_goals simp

@[simp] theorem State.foundEod_rest (s : State) (e : EodFound) :
    (State.foundEod s e).rest = s.rest := by
  unfold State.foundEod
  try dsimp only
  repeat' split
  all_goals simp

@[simp] theorem State.advanceN_rest (s : State) (takeFloor : Bool) :
    (State.advanceN s takeFloor).rest = s.rest := by
  unfold State.advanceN
  try dsimp only
  repeat' split
  all_goals simp

@[simp] theorem State.askSlot_rest (s : State) (p : TapePos) :
    (State.askSlot s p).rest = s.rest := by
  unfold State.askSlot
  try dsimp only
  repeat' split
  all_goals simp

@[simp] theorem State.blocked_rest (s : State) (r : ReadState) :
    (State.blocked s r).rest = s.rest := by
  unfold State.blocked
  try dsimp only
  repeat' split
  all_goals simp

@[simp] theorem State.acceptSlot_rest (s : State) (x : Reception) (h : Header) :
    (State.acceptSlot s x h).rest = s.rest := by
  unfold State.acceptSlot
  try dsimp only
  all_goals simp

@[simp] theorem State.afterAccept_rest (s : State) (r : ReadState) (x : Reception) (h : Header) :
    (State.afterAccept s r x h).rest = s.rest := by
  unfold State.afterAccept
  try dsimp only
  repeat' split
  all_goals simp

@[simp] theorem State.scoreRuling_rest (s : State) (r : ReadState) (h : Header) (counts : Option Counts) (z : Ruling) :
    (State.scoreRuling s r h counts z).rest = s.rest := by
  unfold State.scoreRuling
  try dsimp only
  repeat' split
  all_goals simp

@[simp] theorem State.windowFull_rest (s : State) :
    (State.windowFull s).rest = s.rest := by
  unfold State.windowFull
  try dsimp only
  all_goals simp

@[simp] theorem State.rule_rest (s : State) (r : ReadState) (x : Reception) (report : Option (Bool × Bool × Counts)) :
    (State.rule s r x report).rest = s.rest := by
  unfold State.rule
  try dsimp only
  repeat' split
  all_goals simp

@[simp] theorem State.ruleMissing_rest (s : State) :
    (State.ruleMissing s).rest = s.rest := by
  unfold State.ruleMissing
  try dsimp only
  repeat' split
  all_goals simp

@[simp] theorem State.readTurn_rest (s : State) (p : TapePos) :
    (State.readTurn s p).rest = s.rest := by
  unfold State.readTurn
  try dsimp only
  repeat' split
  all_goals simp

@[simp] theorem State.placeMarker_rest (s : State) (i : Nat) :
    (State.placeMarker s i).rest = s.rest := by
  unfold State.placeMarker
  try dsimp only
  repeat' split
  all_goals simp

@[simp] theorem State.beginRetry_rest (s : State) (r : ReadState) (w : Window) :
    (State.beginRetry s r w).rest = s.rest := by
  unfold State.beginRetry
  try dsimp only
  repeat' split
  all_goals simp

@[simp] theorem State.newRound_rest (s : State) (i : Nat) (m : Marker) :
    (State.newRound s i m).rest = s.rest := by
  unfold State.newRound
  try dsimp only
  all_goals simp

/-! ### Deliver -/

@[simp] theorem State.deliveredFree_rest (s : State) (i : Nat) :
    (State.deliveredFree s i).rest = s.rest := by
  unfold State.deliveredFree
  try dsimp only
  all_goals simp

@[simp] theorem State.returnSlot_rest (s : State) :
    (State.returnSlot s).rest = s.rest := by
  unfold State.returnSlot
  try dsimp only
  repeat' split
  all_goals simp

@[simp] theorem State.endDelivery_rest (s : State) (x : Nat × Nat) (r : Result) (residual : Option Nat) (stripe : Nat) :
    (State.endDelivery s x r residual stripe).rest = s.rest := by
  unfold State.endDelivery
  try dsimp only
  repeat' split
  all_goals simp

@[simp] theorem State.passRecord_rest (s : State) (i e : Nat) (x : Nat × Nat) (r : Result) (residual : Option Nat) :
    (State.passRecord s i e x r residual).rest = s.rest := by
  unfold State.passRecord
  try dsimp only
  repeat' split
  all_goals simp

@[simp] theorem State.failDelivery_rest (s : State) (r : Result) (stripe : Nat) :
    (State.failDelivery s r stripe).rest = s.rest := by
  unfold State.failDelivery
  try dsimp only
  all_goals simp

@[simp] theorem State.finishDelivery_rest (s : State) :
    (State.finishDelivery s).rest = s.rest := by
  unfold State.finishDelivery
  try dsimp only
  repeat' split
  all_goals simp

@[simp] theorem State.streamError_rest (s : State) (d : Delivery) :
    (State.streamError s d).rest = s.rest := by
  unfold State.streamError
  try dsimp only
  repeat' split
  all_goals simp

@[simp] theorem State.openEntryOf_rest (s : State) (i : Nat) (p : DsPos) :
    (State.openEntryOf s i p).rest = s.rest := by
  unfold State.openEntryOf
  try dsimp only
  repeat' split
  all_goals simp

@[simp] theorem State.meetMarker_rest (s : State) (i stripe : Nat) (r : Result) (at_ : Nat) :
    (State.meetMarker s i stripe r at_).rest = s.rest := by
  unfold State.meetMarker
  try dsimp only
  repeat' split
  all_goals simp

@[simp] theorem State.tryOpen_rest (s : State) :
    (State.tryOpen s).rest = s.rest := by
  unfold State.tryOpen
  try dsimp only
  repeat' split
  all_goals simp

@[simp] theorem State.unpackTaken_rest (s : State) (w : Nat) :
    (State.unpackTaken s w).rest = s.rest := by
  unfold State.unpackTaken
  try dsimp only
  repeat' split
  all_goals simp

@[simp] theorem State.decodeRun_rest (s : State) (d : Delivery) :
    (State.decodeRun s d).rest = s.rest := by
  unfold State.decodeRun
  try dsimp only
  repeat' split
  all_goals simp

@[simp] theorem State.handTo_rest (s : State) (d : Delivery) (j : Nat) :
    (State.handTo s d j).rest = s.rest := by
  unfold State.handTo
  try dsimp only
  repeat' split
  all_goals simp

@[simp] theorem State.tryHandover_rest (s : State) (d : Delivery) :
    (State.tryHandover s d).rest = s.rest := by
  unfold State.tryHandover
  try dsimp only
  repeat' split
  all_goals simp

@[simp] theorem State.abortDelivery_rest (s : State) :
    (State.abortDelivery s).rest = s.rest := by
  unfold State.abortDelivery
  try dsimp only
  repeat' split
  all_goals simp

@[simp] theorem State.fetchCoded_rest (s : State) (d : Delivery) :
    (State.fetchCoded s d).rest = s.rest := by
  unfold State.fetchCoded
  try dsimp only
  all_goals simp

/-! ### Search -/

@[simp] theorem State.setJob_rest (s : State) (j : Job) :
    (State.setJob s j).rest = s.rest := by
  unfold State.setJob
  try dsimp only
  all_goals simp

@[simp] theorem State.goPlace_rest (s : State) (j : Job) (f : Finish) (p : TapePos) :
    (State.goPlace s j f p).rest = s.rest := by
  unfold State.goPlace
  try dsimp only
  all_goals simp

@[simp] theorem State.goSearch_rest (s : State) (j : Job) (x : Search) :
    (State.goSearch s j x).rest = s.rest := by
  unfold State.goSearch
  try dsimp only
  all_goals simp

@[simp] theorem State.stopJob_rest (s : State) (j : Job) (f : Finish) :
    (State.stopJob s j f).rest = s.rest := by
  unfold State.stopJob
  try dsimp only
  all_goals simp

@[simp] theorem State.endJob_rest (s : State) (j : Job) (f : Finish) :
    (State.endJob s j f).rest = s.rest := by
  unfold State.endJob
  try dsimp only
  repeat' split
  all_goals simp

@[simp] theorem State.clearForMove_rest (s : State) :
    (State.clearForMove s).rest = s.rest := by
  unfold State.clearForMove
  try dsimp only
  repeat' split
  all_goals simp

@[simp] theorem State.goRecord_rest (s : State) (j : Job) (r : Nat) (f : Option Finish) :
    (State.goRecord s j r f).rest = s.rest := by
  unfold State.goRecord
  try dsimp only
  repeat' split
  all_goals simp

@[simp] theorem State.goStripe_rest (s : State) (j : Job) (t : Nat) :
    (State.goStripe s j t).rest = s.rest := by
  unfold State.goStripe
  try dsimp only
  repeat' split
  all_goals simp

@[simp] theorem State.goEnd_rest (s : State) (j : Job) :
    (State.goEnd s j).rest = s.rest := by
  unfold State.goEnd
  try dsimp only
  repeat' split
  all_goals simp

@[simp] theorem State.decideRecords_rest (s : State) (j : Job) (plan : SpacePlan) (aim : Nat) (clamped : Bool) (marks : List Nat) :
    (State.decideRecords s j plan aim clamped marks).rest = s.rest := by
  unfold State.decideRecords
  try dsimp only
  repeat' split
  all_goals simp

@[simp] theorem State.decideMarks_rest (s : State) (j : Job) (plan : SpacePlan) (marks : List Nat) (scanEnd : Option DsPos) :
    (State.decideMarks s j plan marks scanEnd).rest = s.rest := by
  unfold State.decideMarks
  try dsimp only
  repeat' split
  all_goals simp

@[simp] theorem State.goSpace_rest (s : State) (j0 : Job) (plan : SpacePlan) :
    (State.goSpace s j0 plan).rest = s.rest := by
  unfold State.goSpace
  try dsimp only
  repeat' split
  all_goals simp

@[simp] theorem State.spanDone_rest (s : State) (j : Job) (x : Search) (ended : Bool) :
    (State.spanDone s j x ended).rest = s.rest := by
  unfold State.spanDone
  try dsimp only
  repeat' split
  all_goals simp

@[simp] theorem State.overshoot_rest (s : State) (j : Job) (x : Search) :
    (State.overshoot s j x).rest = s.rest := by
  unfold State.overshoot
  try dsimp only
  repeat' split
  all_goals simp

@[simp] theorem State.foundTarget_rest (s : State) (j : Job) (x : Search) (h : HeaderSeen) (r : Nat) :
    (State.foundTarget s j x h r).rest = s.rest := by
  unfold State.foundTarget
  try dsimp only
  repeat' split
  all_goals simp

@[simp] theorem State.searchEnded_rest (s : State) (j : Job) (x : Search) :
    (State.searchEnded s j x).rest = s.rest := by
  unfold State.searchEnded
  try dsimp only
  repeat' split
  all_goals simp

@[simp] theorem State.searchOn_rest (s : State) (j : Job) (x : Search) :
    (State.searchOn s j x).rest = s.rest := by
  unfold State.searchOn
  try dsimp only
  repeat' split
  all_goals simp

@[simp] theorem State.matchHeader_rest (s : State) (j : Job) (x : Search) (h : HeaderSeen) :
    (State.matchHeader s j x h).rest = s.rest := by
  unfold State.matchHeader
  try dsimp only
  repeat' split
  all_goals simp

@[simp] theorem State.ruleHeader_rest (s : State) (j : Job) (x : Search) (blank : Bool) (h : Option HeaderSeen) :
    (State.ruleHeader s j x blank h).rest = s.rest := by
  unfold State.ruleHeader
  try dsimp only
  repeat' split
  all_goals simp

@[simp] theorem State.staleEnded_rest (s : State) (j : Job) (x : Search) :
    (State.staleEnded s j x).rest = s.rest := by
  unfold State.staleEnded
  try dsimp only
  repeat' split
  all_goals simp

@[simp] theorem State.staleOn_rest (s : State) (j : Job) (x : Search) :
    (State.staleOn s j x).rest = s.rest := by
  unfold State.staleOn
  try dsimp only
  repeat' split
  all_goals simp

theorem applyHeld_rest : ∀ (n : Nat) (s : State) (x : Search) (k : HeaderSeen), (applyHeld n s x k).1.rest = s.rest
  | 0, _, _, _ => rfl
  | n + 1, s, x, k => by
    unfold applyHeld
    dsimp only
    repeat' split
    all_goals simp [applyHeld_rest n]

@[simp] theorem State.ruleStale_rest (s : State) (j : Job) (x : Search) (blank : Bool) (h : Option HeaderSeen) :
    (State.ruleStale s j x blank h).rest = s.rest := by
  unfold State.ruleStale
  dsimp only
  repeat' split
  all_goals simp [applyHeld_rest]


@[simp] theorem State.ruleReport_rest (s : State) (j : Job) (x : Search) (blank : Bool) (h : Option HeaderSeen) :
    (State.ruleReport s j x blank h).rest = s.rest := by
  unfold State.ruleReport
  try dsimp only
  repeat' split
  all_goals simp

@[simp] theorem State.searchAtMediaEnd_rest (s : State) (j : Job) (x : Search) :
    (State.searchAtMediaEnd s j x).rest = s.rest := by
  unfold State.searchAtMediaEnd
  try dsimp only
  repeat' split
  all_goals simp

/-! ### Sensor -/

@[simp] theorem State.ensurePair_rest (s : State) :
    (State.ensurePair s).rest = s.rest := by
  unfold State.ensurePair
  try dsimp only
  repeat' split
  all_goals simp

@[simp] theorem State.halfComplete_rest (s : State) (i : Nat) :
    (State.halfComplete s i).rest = s.rest := by
  unfold State.halfComplete
  try dsimp only
  repeat' split
  all_goals simp

@[simp] theorem State.addResult_rest (s : State) (r : SensorResult) :
    (State.addResult s r).rest = s.rest := by
  unfold State.addResult
  try dsimp only
  repeat' split
  all_goals simp

@[simp] theorem State.pauseStreaming_rest (s : State) :
    (State.pauseStreaming s).rest = s.rest := by
  unfold State.pauseStreaming
  try dsimp only
  repeat' split
  all_goals simp

@[simp] theorem State.thermal_rest (s : State) (raw : Nat) :
    (State.thermal s raw).rest = s.rest := by
  unfold State.thermal
  try dsimp only
  repeat' split
  all_goals simp

@[simp] theorem State.converted_rest (s : State) (q : Sequence) (raw : Nat) :
    (State.converted s q raw).rest = s.rest := by
  unfold State.converted
  try dsimp only
  repeat' split
  all_goals simp

/-! ### Thread -/

@[simp] theorem State.faultNote_rest (s : State) (cause : Nat) :
    (State.faultNote s cause).rest = s.rest := by
  unfold State.faultNote
  try dsimp only
  repeat' split
  all_goals simp

@[simp] theorem State.enterFault_rest (s : State) (cause : Nat) (r : Result) (detailB : Detail) :
    (State.enterFault s cause r detailB).rest = s.rest := by
  unfold State.enterFault
  try dsimp only
  repeat' split
  all_goals simp

@[simp] theorem State.failRecovery_rest (s : State) (j : Job) :
    (State.failRecovery s j).rest = s.rest := by
  unfold State.failRecovery
  try dsimp only
  repeat' split
  all_goals simp

@[simp] theorem State.beginThreading_rest (s : State) (kind : CartKind) :
    (State.beginThreading s kind).rest = s.rest := by
  unfold State.beginThreading
  try dsimp only
  repeat' split
  all_goals simp

@[simp] theorem State.attemptFailed_rest (s : State) (t : Thread) (tapeInPath : Bool) (why : Nat) :
    (State.attemptFailed s t tapeInPath why).rest = s.rest := by
  unfold State.attemptFailed
  try dsimp only
  repeat' split
  all_goals simp

@[simp] theorem State.raiseLoads_rest (s : State) :
    (State.raiseLoads s).rest = s.rest := by
  unfold State.raiseLoads
  try dsimp only
  all_goals simp

@[simp] theorem State.threaded_rest (s : State) :
    (State.threaded s).rest = s.rest := by
  unfold State.threaded
  try dsimp only
  repeat' split
  all_goals simp

@[simp] theorem State.beginUnthread_rest (s : State) :
    (State.beginUnthread s).rest = s.rest := by
  unfold State.beginUnthread
  try dsimp only
  repeat' split
  all_goals simp

@[simp] theorem State.threadedCleaning_rest (s : State) :
    (State.threadedCleaning s).rest = s.rest := by
  unfold State.threadedCleaning
  try dsimp only
  repeat' split
  all_goals simp

@[simp] theorem State.cleaned_rest (s : State) :
    (State.cleaned s).rest = s.rest := by
  unfold State.cleaned
  try dsimp only
  all_goals simp

@[simp] theorem State.ejected_rest (s : State) :
    (State.ejected s).rest = s.rest := by
  unfold State.ejected
  try dsimp only
  repeat' split
  all_goals simp

@[simp] theorem State.beginRecovery_rest (s : State) (j : Job) :
    (State.beginRecovery s j).rest = s.rest := by
  unfold State.beginRecovery
  try dsimp only
  all_goals simp

/-! ### Link -/

@[simp] theorem State.beginLink_rest (s : State) (kind : LinkKind) (steps : List Transaction) :
    (State.beginLink s kind steps).rest = s.rest := by
  unfold State.beginLink
  try dsimp only
  all_goals simp

@[simp] theorem State.afterLoadRead_rest (s : State) :
    (State.afterLoadRead s).rest = s.rest := by
  unfold State.afterLoadRead
  try dsimp only
  repeat' split
  all_goals simp

@[simp] theorem State.afterCounters_rest (s : State) (ok : Bool) :
    (State.afterCounters s ok).rest = s.rest := by
  unfold State.afterCounters
  try dsimp only
  repeat' split
  all_goals simp

@[simp] theorem State.afterInvalidate_rest (s : State) (id : Nat) (aborted ok : Bool) :
    (State.afterInvalidate s id aborted ok).rest = s.rest := by
  unfold State.afterInvalidate
  try dsimp only
  repeat' split
  all_goals simp

@[simp] theorem State.afterSave_rest (s : State) (code : Nat) :
    (State.afterSave s code).rest = s.rest := by
  unfold State.afterSave
  try dsimp only
  repeat' split
  all_goals simp

@[simp] theorem State.saved_rest (s : State) :
    (State.saved s).rest = s.rest := by
  unfold State.saved
  try dsimp only
  repeat' split
  all_goals simp

@[simp] theorem State.saveFailed_rest (s : State) (page : Nat) :
    (State.saveFailed s page).rest = s.rest := by
  unfold State.saveFailed
  try dsimp only
  repeat' split
  all_goals simp

@[simp] theorem State.beginSave_rest (s : State) :
    (State.beginSave s).rest = s.rest := by
  unfold State.beginSave
  try dsimp only
  repeat' split
  all_goals simp

@[simp] theorem State.linkDone_rest (s : State) (op : LinkOp) :
    (State.linkDone s op).rest = s.rest := by
  unfold State.linkDone
  try dsimp only
  repeat' split
  all_goals simp

@[simp] theorem State.linkFailed_rest (s : State) (op : LinkOp) (t : Transaction) :
    (State.linkFailed s op t).rest = s.rest := by
  unfold State.linkFailed
  try dsimp only
  repeat' split
  all_goals simp

@[simp] theorem State.linkNoAck_rest (s : State) (op : LinkOp) (t : Transaction) :
    (State.linkNoAck s op t).rest = s.rest := by
  unfold State.linkNoAck
  try dsimp only
  repeat' split
  all_goals simp

/-! ### Reset -/

@[simp] theorem State.answerAllError_rest (s : State) :
    (State.answerAllError s).rest = s.rest := by
  unfold State.answerAllError
  try dsimp only
  all_goals simp

/-! ### Intake -/

@[simp] theorem State.runSetPool_rest (s : State) (id n : Nat) :
    (State.runSetPool s id n).rest = s.rest := by
  unfold State.runSetPool
  try dsimp only
  repeat' split
  all_goals simp

@[simp] theorem State.runSetCompression_rest (s : State) (id setting : Nat) :
    (State.runSetCompression s id setting).rest = s.rest := by
  unfold State.runSetCompression
  try dsimp only
  repeat' split
  all_goals simp

@[simp] theorem State.runSetSealInterval_rest (s : State) (id seconds : Nat) :
    (State.runSetSealInterval s id seconds).rest = s.rest := by
  unfold State.runSetSealInterval
  try dsimp only
  repeat' split
  all_goals simp

@[simp] theorem State.runSensorPlan_rest (s : State) (id : Nat) (p : PlanArgs) :
    (State.runSensorPlan s id p).rest = s.rest := by
  unfold State.runSensorPlan
  try dsimp only
  repeat' split
  all_goals simp

@[simp] theorem State.runSetHealth_rest (s : State) (id ci : Nat) :
    (State.runSetHealth s id ci).rest = s.rest := by
  unfold State.runSetHealth
  try dsimp only
  repeat' split
  all_goals simp

@[simp] theorem State.runQueryHealth_rest (s : State) (id : Nat) :
    (State.runQueryHealth s id).rest = s.rest := by
  unfold State.runQueryHealth
  try dsimp only
  all_goals simp

@[simp] theorem State.runLoopback_rest (s : State) (id slot : Nat) :
    (State.runLoopback s id slot).rest = s.rest := by
  unfold State.runLoopback
  try dsimp only
  repeat' split
  all_goals simp

@[simp] theorem State.stopReposition_rest (s : State) :
    (State.stopReposition s).rest = s.rest := by
  unfold State.stopReposition
  try dsimp only
  repeat' split
  all_goals simp

@[simp] theorem State.stopStreaming_rest (s : State) :
    (State.stopStreaming s).rest = s.rest := by
  unfold State.stopStreaming
  try dsimp only
  repeat' split
  all_goals simp

@[simp] theorem State.runClose_rest (s : State) (id : Nat) :
    (State.runClose s id).rest = s.rest := by
  unfold State.runClose
  try dsimp only
  repeat' split
  all_goals simp

@[simp] theorem State.abortPool_rest (s : State) :
    (State.abortPool s).rest = s.rest := by
  unfold State.abortPool
  try dsimp only
  repeat' split
  all_goals simp

@[simp] theorem State.abortJob_rest (s : State) :
    (State.abortJob s).rest = s.rest := by
  unfold State.abortJob
  try dsimp only
  repeat' split
  all_goals simp

@[simp] theorem State.abortData_rest (s : State) (id : Nat) :
    (State.abortData s id).rest = s.rest := by
  unfold State.abortData
  try dsimp only
  repeat' split
  all_goals simp

@[simp] theorem State.cutData_rest (s : State) (id : Nat) :
    (State.cutData s id).rest = s.rest := by
  unfold State.cutData
  try dsimp only
  repeat' split
  all_goals simp

@[simp] theorem State.abortQueues_rest (s : State) :
    (State.abortQueues s).rest = s.rest := by
  unfold State.abortQueues
  try dsimp only
  all_goals simp

@[simp] theorem State.completeAborts_rest (s : State) :
    (State.completeAborts s).rest = s.rest := by
  unfold State.completeAborts
  try dsimp only
  all_goals simp

@[simp] theorem State.runAbort_rest (s : State) (id : Nat) :
    (State.runAbort s id).rest = s.rest := by
  unfold State.runAbort
  try dsimp only
  repeat' split
  all_goals simp

@[simp] theorem State.runConfig_rest (s : State) (t : Taken) :
    (State.runConfig s t).rest = s.rest := by
  unfold State.runConfig
  try dsimp only
  repeat' split
  all_goals simp

theorem State.headStream_rest (s : State) (t : Taken) (count : Nat) (lengths : List Nat) {u : State}
    (hu : State.headStream s t count lengths = some u) : u.rest = s.rest := by
  revert hu
  unfold State.headStream
  try dsimp only
  repeat' split
  all_goals (intro hu; first | (simp at hu; done) | (simp at hu; try subst hu; simp_all))

theorem State.headMark_rest (s : State) (t : Taken) (count sync : Nat) {u : State}
    (hu : State.headMark s t count sync = some u) : u.rest = s.rest := by
  revert hu
  unfold State.headMark
  try dsimp only
  repeat' split
  all_goals (intro hu; first | (simp at hu; done) | (simp at hu; try subst hu; simp_all))

@[simp] theorem State.endFlush_rest (s : State) (id : Nat) (r : Result) :
    (State.endFlush s id r).rest = s.rest := by
  unfold State.endFlush
  try dsimp only
  all_goals simp

theorem State.headFlush_rest (s : State) (t : Taken) {u : State}
    (hu : State.headFlush s t = some u) : u.rest = s.rest := by
  revert hu
  unfold State.headFlush
  try dsimp only
  repeat' split
  all_goals (intro hu; first | (simp at hu; done) | (simp at hu; try subst hu; simp_all))

theorem State.headOpenWrite_rest (s : State) (t : Taken) {u : State}
    (hu : State.headOpenWrite s t = some u) : u.rest = s.rest := by
  revert hu
  unfold State.headOpenWrite
  try dsimp only
  repeat' split
  all_goals (intro hu; first | (simp at hu; done) | (simp at hu; try subst hu; simp_all))

@[simp] theorem State.openRead_rest (s : State) (id : Nat) :
    (State.openRead s id).rest = s.rest := by
  unfold State.openRead
  try dsimp only
  repeat' split
  all_goals simp

theorem State.headOpenRead_rest (s : State) (t : Taken) {u : State}
    (hu : State.headOpenRead s t = some u) : u.rest = s.rest := by
  revert hu
  unfold State.headOpenRead
  try dsimp only
  repeat' split
  all_goals (intro hu; first | (simp at hu; done) | (simp at hu; try subst hu; simp_all))

theorem State.headDeliver_rest (s : State) (t : Taken) (length : Nat) {u : State}
    (hu : State.headDeliver s t length = some u) : u.rest = s.rest := by
  revert hu
  unfold State.headDeliver
  try dsimp only
  repeat' split
  all_goals (intro hu; first | (simp at hu; done) | (simp at hu; try subst hu; simp_all))

theorem State.serveData_rest (s : State) {t : State} (h : State.serveData s = some t) : t.rest = s.rest := by
  unfold State.serveData at h
  repeat' split at h
  all_goals first
    | (simp at h; done)
    | exact State.headStream_rest _ _ _ _ h
    | exact State.headMark_rest _ _ _ _ h
    | exact State.headFlush_rest _ _ h
    | exact State.headOpenWrite_rest _ _ h
    | exact State.headOpenRead_rest _ _ h
    | exact State.headDeliver_rest _ _ _ h
    | (simp at h; subst h; simp)


@[simp] theorem State.askLoadRead_rest (s : State) : (State.askLoadRead s).rest = s.rest := by
  unfold State.askLoadRead
  split
  all_goals simp

@[simp] theorem State.runLoad_rest (s : State) (id : Nat) :
    (State.runLoad s id).rest = s.rest := by
  unfold State.runLoad
  try dsimp only
  repeat' split
  all_goals simp

@[simp] theorem State.unloadPool_rest (s : State) :
    (State.unloadPool s).rest = s.rest := by
  unfold State.unloadPool
  try dsimp only
  repeat' split
  all_goals simp

@[simp] theorem State.runUnload_rest (s : State) (id : Nat) :
    (State.runUnload s id).rest = s.rest := by
  unfold State.runUnload
  try dsimp only
  repeat' split
  all_goals simp

@[simp] theorem State.runRewind_rest (s : State) (id : Nat) :
    (State.runRewind s id).rest = s.rest := by
  unfold State.runRewind
  try dsimp only
  repeat' split
  all_goals simp

@[simp] theorem State.runLocate_rest (s : State) (id kind target : Nat) :
    (State.runLocate s id kind target).rest = s.rest := by
  unfold State.runLocate
  try dsimp only
  repeat' split
  all_goals simp

@[simp] theorem State.runLocateEod_rest (s : State) (id : Nat) :
    (State.runLocateEod s id).rest = s.rest := by
  unfold State.runLocateEod
  try dsimp only
  repeat' split
  all_goals simp

@[simp] theorem State.runSpace_rest (s : State) (id kind : Nat) (count : Int) :
    (State.runSpace s id kind count).rest = s.rest := by
  unfold State.runSpace
  try dsimp only
  repeat' split
  all_goals simp

@[simp] theorem State.runMotion_rest (s : State) (t : Taken) :
    (State.runMotion s t).rest = s.rest := by
  unfold State.runMotion
  try dsimp only
  repeat' split
  all_goals simp

theorem State.serveMotion_rest (s : State) {u : State}
    (hu : State.serveMotion s = some u) : u.rest = s.rest := by
  revert hu
  unfold State.serveMotion
  try dsimp only
  repeat' split
  all_goals (intro hu; first | (simp at hu; done) | (simp at hu; try subst hu; simp_all))

@[simp] theorem State.join_rest (s : State) (t : Taken) :
    (State.join s t).rest = s.rest := by
  unfold State.join
  try dsimp only
  repeat' split
  all_goals simp

@[simp] theorem State.takeCmd_rest (s : State) (tag : BitVec 16) (flags : BitVec 8) (malformed : Bool) (cmd : HostCmd) :
    (State.takeCmd s tag flags malformed cmd).rest = s.rest := by
  unfold State.takeCmd
  dsimp only
  split
  · rfl
  · split
    · split <;> simp
    · exact getD_rest (fun t h => by simpa using State.serveMotion_rest _ h) (by simp)
    · exact getD_rest (fun t h => by simpa using State.serveData_rest _ h) (by simp)


theorem State.serveConfig_rest (s : State) {u : State}
    (hu : State.serveConfig s = some u) : u.rest = s.rest := by
  revert hu
  unfold State.serveConfig
  try dsimp only
  repeat' split
  all_goals (intro hu; first | (simp at hu; done) | (simp at hu; try subst hu; simp_all))

/-! ### Path -/

@[simp] theorem State.askPost_rest (s : State) :
    (State.askPost s).rest = s.rest := by
  unfold State.askPost
  try dsimp only
  repeat' split
  all_goals simp

@[simp] theorem State.showCommand_rest (s : State) (a : Access) :
    (State.showCommand s a).rest = s.rest := by
  unfold State.showCommand
  try dsimp only
  repeat' split
  all_goals simp

@[simp] theorem State.postWrite_rest (s : State) (a : Access) :
    (State.postWrite s a).rest = s.rest := by
  unfold State.postWrite
  try dsimp only
  repeat' split
  all_goals simp

@[simp] theorem State.holdAccess_rest (s : State) (a : Access) (why : HoldWhy) (i : Nat) (d : Descriptor) :
    (State.holdAccess s a why i d).rest = s.rest := by
  unfold State.holdAccess
  try dsimp only
  repeat' split
  all_goals simp

theorem State.tryPack_rest (s : State) (a : Access) (d : Descriptor) {u : State}
    (hu : State.tryPack s a d = some u) : u.rest = s.rest := by
  revert hu
  unfold State.tryPack
  try dsimp only
  repeat' split
  all_goals (intro hu; first | (simp at hu; done) | (simp at hu; try subst hu; simp_all))

theorem State.tryUnpack_rest (s : State) (a : Access) (d : Descriptor) {u : State}
    (hu : State.tryUnpack s a d = some u) : u.rest = s.rest := by
  revert hu
  unfold State.tryUnpack
  try dsimp only
  repeat' split
  all_goals (intro hu; first | (simp at hu; done) | (simp at hu; try subst hu; simp_all))

@[simp] theorem State.handPack_rest (s : State) (a : Access) (i : Nat) (d : Descriptor) :
    (State.handPack s a i d).rest = s.rest :=
  getD_rest (fun _ h => State.tryPack_rest s a d h) (by simp)


@[simp] theorem State.handUnpack_rest (s : State) (a : Access) (i : Nat) (d : Descriptor) :
    (State.handUnpack s a i d).rest = s.rest :=
  getD_rest (fun _ h => State.tryUnpack_rest s a d h) (by simp)


@[simp] theorem State.concern_rest (s : State) (z : RegionKind) :
    (State.concern s z).rest = s.rest := by
  unfold State.concern
  try dsimp only
  repeat' split
  all_goals simp

@[simp] theorem State.rehold_rest (s : State) (h : Held) :
    (State.rehold s h).rest = s.rest := by
  unfold State.rehold
  try dsimp only
  repeat' split
  all_goals simp

@[simp] theorem State.reclassify_rest (s : State) (i : Nat) :
    (State.reclassify s i).rest = s.rest := by
  unfold State.reclassify
  try dsimp only
  all_goals simp

@[simp] theorem State.refuseCommit_rest (s : State) (a : Access) (i code : Nat) (b : List Byte) :
    (State.refuseCommit s a i code b).rest = s.rest := by
  unfold State.refuseCommit
  try dsimp only
  repeat' split
  all_goals simp

@[simp] theorem State.queueAccess_rest (s : State) (a : Access) :
    (State.queueAccess s a).rest = s.rest := by
  unfold State.queueAccess
  try dsimp only
  all_goals simp

@[simp] theorem State.regionWrite_rest (s : State) (a : Access) (i : Nat) (d : Descriptor) :
    (State.regionWrite s a i d).rest = s.rest := by
  unfold State.regionWrite
  try dsimp only
  repeat' split
  all_goals simp

@[simp] theorem State.mapAccess_rest (s : State) (a : Access) :
    (State.mapAccess s a).rest = s.rest := by
  unfold State.mapAccess
  try dsimp only
  repeat' split
  all_goals simp

@[simp] theorem State.route_rest (s : State) (a : Access) :
    (State.route s a).rest = s.rest := by
  unfold State.route
  try dsimp only
  repeat' split
  all_goals simp

@[simp] theorem State.clearAnswer_rest (s : State) (who : Initiator) :
    (State.clearAnswer s who).rest = s.rest := by
  unfold State.clearAnswer
  try dsimp only
  repeat' split
  all_goals simp

@[simp] theorem State.arriveAt_rest (s : State) (a : Access) :
    (State.arriveAt s a).rest = s.rest := by
  unfold State.arriveAt
  try dsimp only
  repeat' split
  all_goals simp

@[simp] theorem State.unhold_rest (s : State) (h : Held) :
    (State.unhold s h).rest = s.rest := by
  unfold State.unhold
  try dsimp only
  all_goals simp

theorem State.reexamine_rest (s : State) (x : Held) {t : State} (h : State.reexamine s x = some t) : t.rest = s.rest := by
  unfold State.reexamine at h
  dsimp only at h
  split at h
  · split at h <;> simp at h
    subst h; simp
  · simp only [Option.map_eq_some_iff] at h
    obtain ⟨_, _, rfl⟩ := h
    simp
  · simp only [Option.bind_eq_some_iff] at h
    obtain ⟨_, _, h⟩ := h
    simpa using State.tryPack_rest _ _ _ h
  · simp only [Option.bind_eq_some_iff] at h
    obtain ⟨_, _, h⟩ := h
    simpa using State.tryUnpack_rest _ _ _ h


theorem State.releaseHeld_rest (s : State) {t : State} (h : State.releaseHeld s = some t) : t.rest = s.rest := by
  obtain ⟨x, _, h⟩ := List.exists_of_findSome?_eq_some h
  exact State.reexamine_rest s x h


/-! ### Port -/

@[simp] theorem State.channelTakes_rest (s : State) (n : Nat) :
    (State.channelTakes s n).rest = s.rest := by
  unfold State.channelTakes
  try dsimp only
  repeat' split
  all_goals simp

@[simp] theorem State.channelDelivers_rest (s : State) (bytes : List Byte) :
    (State.channelDelivers s bytes).rest = s.rest := by
  unfold State.channelDelivers
  try dsimp only
  repeat' split
  all_goals simp

@[simp] theorem State.channelFlow_rest (s : State) (z : ChannelFlow) :
    (State.channelFlow s z).rest = s.rest := by
  unfold State.channelFlow
  try dsimp only
  repeat' split
  all_goals simp

@[simp] theorem State.countGrant_rest (s : State) (r : Requester) :
    (State.countGrant s r).rest = s.rest := by
  unfold State.countGrant
  try dsimp only
  all_goals simp

@[simp] theorem State.dropCounts_rest (s : State) :
    (State.dropCounts s).rest = s.rest := by
  unfold State.dropCounts
  try dsimp only
  repeat' split
  all_goals simp

@[simp] theorem State.rewritten_rest (s : State) :
    (State.rewritten s).rest = s.rest := by
  unfold State.rewritten
  try dsimp only
  all_goals simp

@[simp] theorem State.raiseTail_rest (s : State) :
    (State.raiseTail s).rest = s.rest := by
  unfold State.raiseTail
  try dsimp only
  repeat' split
  all_goals simp

@[simp] theorem State.readPostWord_rest (s : State) :
    (State.readPostWord s).rest = s.rest := by
  unfold State.readPostWord
  try dsimp only
  repeat' split
  all_goals simp

@[simp] theorem State.takeSlot_rest (s : State) :
    (State.takeSlot s).rest = s.rest := by
  unfold State.takeSlot
  try dsimp only
  repeat' split
  all_goals simp

/-! ### Settle -/

theorem State.reactItem_rest (s : State) {u : State}
    (hu : State.reactItem s = some u) : u.rest = s.rest := by
  revert hu
  unfold State.reactItem
  try dsimp only
  repeat' split
  all_goals (intro hu; first | (simp at hu; done) | (simp at hu; try subst hu; simp_all))

theorem State.reactEmit_rest (s : State) {u : State}
    (hu : State.reactEmit s = some u) : u.rest = s.rest := by
  revert hu
  unfold State.reactEmit
  try dsimp only
  repeat' split
  all_goals (intro hu; first | (simp at hu; done) | (simp at hu; try subst hu; simp_all))

@[simp] theorem State.endSync_rest (s : State) (id : Nat) (r : Result) :
    (State.endSync s id r).rest = s.rest := by
  unfold State.endSync
  try dsimp only
  all_goals simp

theorem State.reactSync_rest (s : State) {u : State}
    (hu : State.reactSync s = some u) : u.rest = s.rest := by
  revert hu
  unfold State.reactSync
  try dsimp only
  repeat' split
  all_goals (intro hu; first | (simp at hu; done) | (simp at hu; try subst hu; simp_all))

theorem State.reactSlot_rest (s : State) {t : State} (h : State.reactSlot s = some t) : t.rest = s.rest := by
  unfold State.reactSlot at h
  split at h
  · split at h
    · simp only [Option.map_eq_some_iff] at h
      obtain ⟨_, _, rfl⟩ := h
      simp
    · split at h
      · simp only [Option.map_eq_some_iff] at h
        obtain ⟨_, _, rfl⟩ := h
        simp
      · simp at h
  · simp at h


theorem State.reactAsk_rest (s : State) {u : State}
    (hu : State.reactAsk s = some u) : u.rest = s.rest := by
  revert hu
  unfold State.reactAsk
  try dsimp only
  repeat' split
  all_goals (intro hu; first | (simp at hu; done) | (simp at hu; try subst hu; simp_all))

theorem State.reactStreamOver_rest (s : State) {u : State}
    (hu : State.reactStreamOver s = some u) : u.rest = s.rest := by
  revert hu
  unfold State.reactStreamOver
  try dsimp only
  repeat' split
  all_goals (intro hu; first | (simp at hu; done) | (simp at hu; try subst hu; simp_all))

theorem State.reactCleared_rest (s : State) {u : State}
    (hu : State.reactCleared s = some u) : u.rest = s.rest := by
  revert hu
  unfold State.reactCleared
  try dsimp only
  repeat' split
  all_goals (intro hu; first | (simp at hu; done) | (simp at hu; try subst hu; simp_all))

theorem State.reactAborts_rest (s : State) {u : State}
    (hu : State.reactAborts s = some u) : u.rest = s.rest := by
  revert hu
  unfold State.reactAborts
  try dsimp only
  repeat' split
  all_goals (intro hu; first | (simp at hu; done) | (simp at hu; try subst hu; simp_all))

theorem State.unloadEmptying_rest (s : State) (j : Job) {u : State}
    (hu : State.unloadEmptying s j = some u) : u.rest = s.rest := by
  revert hu
  unfold State.unloadEmptying
  try dsimp only
  repeat' split
  all_goals (intro hu; first | (simp at hu; done) | (simp at hu; try subst hu; simp_all))

theorem State.reactLoad_rest (s : State) {t : State} (h : State.reactLoad s = some t) : t.rest = s.rest := by
  unfold State.reactLoad at h
  repeat' split at h
  all_goals first
    | (simp at h; done)
    | (cases h; simp)

theorem State.reactUnload_rest (s : State) {t : State} (h : State.reactUnload s = some t) : t.rest = s.rest := by
  unfold State.reactUnload at h
  repeat' split at h
  all_goals first
    | (simp at h; done)
    | exact State.unloadEmptying_rest _ _ h
    | (simp at h; subst h; simp)


theorem State.react_rest (s : State) {t : State} (h : State.react s = some t) : t.rest = s.rest := by
  obtain ⟨f, hf, h⟩ := List.exists_of_findSome?_eq_some h
  simp only [List.mem_cons, List.not_mem_nil, or_false] at hf
  obtain rfl | rfl | rfl | rfl | rfl | rfl | rfl | rfl | rfl | rfl | rfl | rfl | rfl | rfl := hf
  exacts [State.releaseHeld_rest s h, State.reactItem_rest s h, State.reactEmit_rest s h, State.reactSync_rest s h,
    State.reactSlot_rest s h, State.reactAsk_rest s h, State.serveData_rest s h, State.reactStreamOver_rest s h,
    State.reactCleared_rest s h, State.reactAborts_rest s h, State.reactLoad_rest s h, State.reactUnload_rest s h,
    State.serveConfig_rest s h, State.serveMotion_rest s h]


@[simp] theorem State.settle_rest : ∀ (n : Nat) (s : State), (State.settle n s).rest = s.rest
  | 0, _ => rfl
  | n + 1, s => by
    unfold State.settle
    split
    · next t h => rw [State.settle_rest n, State.react_rest s h]
    · rfl

/-- Where nothing follows of itself, settling changes nothing. -/
theorem State.Quiet.settle {s : State} (h : s.Quiet) (n : Nat) : s.settle n = s := by
  cases n with
  | zero => rfl
  | succ n => unfold State.settle; rw [show s.react = none from h]


@[simp] theorem State.finish_rest (s : State) :
    (State.finish s).rest = s.rest := by
  unfold State.finish
  try dsimp only
  all_goals simp

/-! ### Clock -/

@[simp] theorem State.elapse_rest (s : State) (n : Nat) : (State.elapse s n).rest = s.rest := rfl


/-! ### Commands -/

@[simp] theorem State.command_rest (s : State) (tag : BitVec 16) (flags : BitVec 8) (cmd : HostCmd) :
    (State.command s tag flags cmd).rest = s.rest := by
  unfold State.command
  try dsimp only
  all_goals simp

/-! ### Marks -/

@[simp] theorem State.takeSpeed_rest (s : State) :
    (State.takeSpeed s).rest = s.rest := by
  unfold State.takeSpeed
  try dsimp only
  all_goals simp

@[simp] theorem State.startWriting_rest (s : State) :
    (State.startWriting s).rest = s.rest := by
  unfold State.startWriting
  try dsimp only
  repeat' split
  all_goals simp

@[simp] theorem State.startReception_rest (s : State) (x : Reception) :
    (State.startReception s x).rest = s.rest := by
  unfold State.startReception
  try dsimp only
  all_goals simp

@[simp] theorem State.startReading_rest (s : State) :
    (State.startReading s).rest = s.rest := by
  unfold State.startReading
  try dsimp only
  repeat' split
  all_goals simp

@[simp] theorem State.atStartMark_rest (s : State) :
    (State.atStartMark s).rest = s.rest := by
  unfold State.atStartMark
  try dsimp only
  repeat' split
  all_goals simp

@[simp] theorem State.endWritingPass_rest (s : State) (p : TapePos) :
    (State.endWritingPass s p).rest = s.rest := by
  unfold State.endWritingPass
  try dsimp only
  repeat' split
  all_goals simp

@[simp] theorem State.endReadingPass_rest (s : State) (p : TapePos) :
    (State.endReadingPass s p).rest = s.rest := by
  unfold State.endReadingPass
  try dsimp only
  repeat' split
  all_goals simp

@[simp] theorem State.endSearchPass_rest (s : State) (p : TapePos) :
    (State.endSearchPass s p).rest = s.rest := by
  unfold State.endSearchPass
  try dsimp only
  repeat' split
  all_goals simp

@[simp] theorem State.atPassEnd_rest (s : State) (p : TapePos) :
    (State.atPassEnd s p).rest = s.rest := by
  unfold State.atPassEnd
  try dsimp only
  repeat' split
  all_goals simp

@[simp] theorem State.matches__rest (s : State) :
    (State.matches_ s).rest = s.rest := by
  unfold State.matches_
  try dsimp only
  repeat' split
  all_goals simp

@[simp] theorem State.mark_rest (s : State) :
    (State.mark s).rest = s.rest := by
  unfold State.mark
  try dsimp only
  all_goals simp

@[simp] theorem State.firstSpeedFault_rest (s : State) :
    (State.firstSpeedFault s).rest = s.rest := by
  unfold State.firstSpeedFault
  try dsimp only
  repeat' split
  all_goals simp

/-! ### Motion -/

@[simp] theorem State.writeOn_rest (s : State) :
    (State.writeOn s).rest = s.rest := by
  unfold State.writeOn
  try dsimp only
  repeat' split
  all_goals simp

@[simp] theorem State.readOn_rest (s : State) (r : ReadState) :
    (State.readOn s r).rest = s.rest := by
  unfold State.readOn
  try dsimp only
  repeat' split
  all_goals simp

@[simp] theorem State.turned_rest (s : State) :
    (State.turned s).rest = s.rest := by
  unfold State.turned
  try dsimp only
  repeat' split
  all_goals simp

@[simp] theorem State.resumeJob_rest (s : State) (j : Job) :
    (State.resumeJob s j).rest = s.rest := by
  unfold State.resumeJob
  try dsimp only
  repeat' split
  all_goals simp

@[simp] theorem State.jobStopped_rest (s : State) (j : Job) :
    (State.jobStopped s j).rest = s.rest := by
  unfold State.jobStopped
  try dsimp only
  repeat' split
  all_goals simp

@[simp] theorem State.stopped_rest (s : State) :
    (State.stopped s).rest = s.rest := by
  unfold State.stopped
  try dsimp only
  repeat' split
  all_goals simp

/-! ### Reading -/

@[simp] theorem State.askMarker_rest (s : State) :
    (State.askMarker s).rest = s.rest := by
  unfold State.askMarker
  try dsimp only
  repeat' split
  all_goals simp

/-! ### The operations that write memory leave the queue -/

@[simp] theorem State.onDram_rest (s : State) (f : List Host.Cell → List Host.Cell) :
    (s.onDram f).rest = (f s.dram, s.rest.2) := rfl
@[simp] theorem State.onCartridge_rest (s : State) (f : List Host.Cell → List Host.Cell) :
    (s.onCartridge f).rest = (s.rest.1, f s.cartridge, s.rest.2.2) := rfl
theorem State.queue_eq (s : State) : s.rest.2.2 = s.pending := rfl

theorem foldl_queue {α : Type} (g : State → α → State) (h : ∀ s a, (g s a).pending = s.pending) :
    ∀ (l : List α) (s : State), (l.foldl g s).pending = s.pending
  | [], _ => rfl
  | a :: l, s => by rw [List.foldl_cons, foldl_queue g h l, h]

@[simp] theorem State.placeBytes_queue (s : State) (i : Nat) :
    (State.placeBytes s i).rest.2.2 = s.rest.2.2 := by
  unfold State.placeBytes
  try dsimp only
  repeat' split
  all_goals simp

@[simp] theorem State.placeEntry_queue (s : State) (i : Nat) :
    (State.placeEntry s i).rest.2.2 = s.rest.2.2 := by
  unfold State.placeEntry
  try dsimp only
  all_goals simp

@[simp] theorem State.sealStep_queue (s : State) (j : SealJob) :
    (State.sealStep s j).rest.2.2 = s.rest.2.2 := by
  unfold State.sealStep
  try dsimp only
  repeat' split
  all_goals simp

@[simp] theorem State.doPackWork_queue (s : State) (z : PackWork) :
    (State.doPackWork s z).rest.2.2 = s.rest.2.2 := by
  unfold State.doPackWork
  try dsimp only
  repeat' split
  all_goals simp

/-- Storing what the FIFO still holds of a reception changes DRAM only in those bytes of its slot (R86). -/
theorem State.storeRest_rest (s : State) (x : Reception) :
    (State.storeRest s x).rest = (Memory.writeBytes s.dram (s.slotBase x.slot + x.stored)
      (s.tte.fifo.take (Config.stripeSize - x.stored)), s.rest.2) := by
  unfold State.storeRest
  rw [State.onTte_rest, State.onDram_rest]

@[simp] theorem State.stampSlot_queue (s : State) (i : Nat) (p : TapePos) :
    (State.stampSlot s i p).rest.2.2 = s.rest.2.2 := by
  unfold State.stampSlot
  try dsimp only
  all_goals simp

@[simp] theorem State.armHead_queue (s : State) (i : Nat) (p : TapePos) :
    (State.armHead s i p).rest.2.2 = s.rest.2.2 := by
  unfold State.armHead
  try dsimp only
  all_goals simp

@[simp] theorem State.writeSensor_queue (s : State) (i : Nat) (bytes : List Byte) :
    (State.writeSensor s i bytes).rest.2.2 = s.rest.2.2 := by
  unfold State.writeSensor
  try dsimp only
  repeat' split
  all_goals simp

@[simp] theorem State.program_queue (s : State) (kind : LinkKind) (k : Nat) :
    (State.program s kind k).rest.2.2 = s.rest.2.2 := by
  unfold State.program
  try dsimp only
  all_goals simp

@[simp] theorem State.linkAck_queue (s : State) (op : LinkOp) (t : Transaction) (rest : List Transaction) :
    (State.linkAck s op t rest).rest.2.2 = s.rest.2.2 := by
  unfold State.linkAck
  try dsimp only
  repeat' split
  all_goals simp

@[simp] theorem State.linkOutcome_queue (s : State) (op : LinkOp) (t : Transaction) (rest : List Transaction) (z : LinkOutcome) :
    (State.linkOutcome s op t rest z).rest.2.2 = s.rest.2.2 := by
  unfold State.linkOutcome
  try dsimp only
  repeat' split
  all_goals simp

@[simp] theorem State.cutLink_queue (s : State) :
    (State.cutLink s).rest.2.2 = s.rest.2.2 := by
  unfold State.cutLink
  try dsimp only
  repeat' split
  all_goals simp

@[simp] theorem State.drainLines_queue (s : State) :
    (State.drainLines s).rest.2.2 = s.rest.2.2 := by
  unfold State.drainLines
  try dsimp only
  all_goals simp

@[simp] theorem State.controllerReset_queue (s : State) :
    (State.controllerReset s).rest.2.2 = s.rest.2.2 := by
  unfold State.controllerReset
  try dsimp only
  repeat' split
  all_goals simp

@[simp] theorem State.captureWrite_queue (s : State) (off : Nat) (bs : List Byte) :
    (State.captureWrite s off bs).rest.2.2 = s.rest.2.2 := by
  unfold State.captureWrite
  try dsimp only
  all_goals simp

@[simp] theorem State.acceptCommit_queue (s : State) (a : Access) (i : Nat) (b : List Byte) :
    (s.acceptCommit a i b).rest.2.2 = s.rest.2.2 := by
  unfold State.acceptCommit
  rw [State.reclassify_rest]
  split
  · rw [State.concern_rest, State.concern_rest, State.answer_rest, State.onBpu_rest, State.captureWrite_queue]
  · rw [State.concern_rest, State.answer_rest, State.onBpu_rest, State.captureWrite_queue]


@[simp] theorem State.commit_queue (s : State) (a : Access) (i : Nat) :
    (State.commit s a i).rest.2.2 = s.rest.2.2 := by
  unfold State.commit
  try dsimp only
  repeat' split
  all_goals simp

@[simp] theorem State.captureWord_queue (s : State) (off : Nat) :
    (State.captureWord s off).rest.2.2 = s.rest.2.2 := by
  unfold State.captureWord
  try dsimp only
  repeat' split
  all_goals simp

theorem State.captureWord_fold_queue (l : List Nat) (s : State) :
    (l.foldl State.captureWord s).rest.2.2 = s.rest.2.2 := by
  induction l generalizing s with
  | nil => rfl
  | cons o l ih => rw [List.foldl_cons, ih, State.captureWord_queue]

@[simp] theorem State.mapWrite_queue (s : State) (a : Access) : (State.mapWrite s a).rest.2.2 = s.rest.2.2 := by
  unfold State.mapWrite
  dsimp only
  repeat' split
  · simp
  · simp
  · rw [State.captureWord_fold_queue]
    simp


@[simp] theorem State.performAccess_queue (s : State) (a : Access) :
    (State.performAccess s a).rest.2.2 = s.rest.2.2 := by
  unfold State.performAccess
  try dsimp only
  repeat' split
  all_goals simp

@[simp] theorem State.doTteWork_queue (s : State) (w : TteWork) : (s.doTteWork w).rest.2.2 = s.rest.2.2 := by
  unfold State.doTteWork
  split
  · rw [State.onTte_rest]
  · rw [State.onRead_rest, State.onTte_rest, State.onDram_rest]


@[simp] theorem State.writeRecord_queue (s : State) : s.writeRecord.rest.2.2 = s.rest.2.2 := by
  unfold State.writeRecord
  dsimp only
  repeat' split
  · rw [State.onCw_rest]
  · rw [State.onCw_rest]
  · rw [State.askStatus_rest, State.onCw_rest, State.free_rest, State.onDram_rest, State.onCw_rest]


@[simp] theorem State.writeStatus_queue (s : State) :
    (State.writeStatus s).rest.2.2 = s.rest.2.2 := by
  unfold State.writeStatus
  try dsimp only
  all_goals simp

@[simp] theorem State.clearPostWord_queue (s : State) (a : Nat) (bytes : List Byte) :
    (State.clearPostWord s a bytes).rest.2.2 = s.rest.2.2 := by
  unfold State.clearPostWord
  try dsimp only
  all_goals simp

@[simp] theorem State.doRing_queue (s : State) (z : RingReq) :
    (State.doRing s z).rest.2.2 = s.rest.2.2 := by
  unfold State.doRing
  try dsimp only
  repeat' split
  all_goals simp

@[simp] theorem State.doUpstream_queue (s : State) :
    (State.doUpstream s).rest.2.2 = s.rest.2.2 := by
  unfold State.doUpstream
  try dsimp only
  repeat' split
  all_goals simp

@[simp] theorem State.doOldestRing_queue (s : State) :
    (State.doOldestRing s).rest.2.2 = s.rest.2.2 := by
  unfold State.doOldestRing
  try dsimp only
  repeat' split
  all_goals simp

@[simp] theorem State.serve_queue (s : State) (r : Requester) : (s.serve r).rest.2.2 = s.rest.2.2 := by
  unfold State.serve
  split
  · cases h : s.tteWork <;> simp
  · simp
  · cases h : s.packWork <;> simp
  · cases h : s.unpackWork <;> simp
  · simp


@[simp] theorem State.grant_queue (s : State) (r : Requester) :
    (State.grant s r).rest.2.2 = s.rest.2.2 := by
  unfold State.grant
  try dsimp only
  all_goals simp

@[simp] theorem State.grantAtOnce_queue (s : State) (a : Access) :
    (State.grantAtOnce s a).rest.2.2 = s.rest.2.2 := by
  unfold State.grantAtOnce
  try dsimp only
  repeat' split
  all_goals simp

@[simp] theorem State.arrive_queue (s : State) (a : Access) :
    (State.arrive s a).rest.2.2 = s.rest.2.2 := by
  unfold State.arrive
  try dsimp only
  repeat' split
  all_goals simp

end Sys2Proof.Machine
end

