-- ==== Sys2Proof/Laws/Taking.lean ====
section
/-! SUPPORT. What taking a command does, once for each group (R183, R184): a configuration command is run, the only command of
the motion queue or of the data queue is run, a completion made in the same step, a stage set in the same step. -/

namespace Sys2Proof.Machine

theorem filter_fresh {l : List Nat} {n : Nat} (h : ∀ k ∈ l, k < n) : l.filter (· != n) = l := by
  rw [List.filter_eq_self]
  intro k hk
  have := h k hk
  simp
  omega

theorem filter_added {l : List Nat} {n : Nat} (p : Prop) [Decidable p] (h : ∀ k ∈ l, k < n) :
    (if p then l ++ [n] else l).filter (· != n) = l := by
  split
  · rw [List.filter_append, filter_fresh h]
    simp
  · exact filter_fresh h

/-- The entry of a command as the CI-unit takes it through a row. -/
abbrev State.entry (e : State) (tag : BitVec 16) (flags : BitVec 8) (cmd : HostCmd) : Taken :=
  e.newTaken tag flags (flagsMalformed flags) cmd

theorem find_fresh {l : List Taken} {n : Nat} (h : ∀ t ∈ l, t.id < n) (p : Taken → Bool) :
    l.find? (fun t => t.id == n && p t) = none := by
  rw [List.find?_eq_none]
  intro t ht
  have := h t ht
  simp
  omega

theorem map_fresh {l : List Taken} {n : Nat} (h : ∀ t ∈ l, t.id < n) (g : Stage) :
    l.map (fun u => if u.id == n then { u with stage := g } else u) = l := by
  conv_rhs => rw [← List.map_id l]
  apply List.map_congr_left
  intro t ht
  have := h t ht
  simp
  omega

/-- A command that completes in the step that takes it (R183, R187). -/
theorem complete_join (e : State) (tag : BitVec 16) (flags : BitVec 8) (cmd : HostCmd) (r : Result) (a b : Detail)
    (hn : e.ci.Numbered) :
    (e.join (e.entry tag flags cmd)).complete e.ci.nextId r a b = e.takenDone tag flags cmd r a b := by
  obtain ⟨h1, h2, h3, h4, h5⟩ := hn
  have hf : (e.join (e.entry tag flags cmd)).ci.outstanding.find?
      (fun t => t.id == e.ci.nextId && t.stage != .handed) = some (e.entry tag flags cmd) := by
    show (e.ci.outstanding ++ [_]).find? _ = _
    rw [List.find?_append, find_fresh h1]
    simp [State.newTaken]
  have hm := filter_added (cmd.group = .motion) h2
  have hd := filter_added (cmd.group = .data) h3
  unfold State.complete
  rw [hf]
  dsimp only
  unfold State.takenDone State.takenOut
  congr 1
  simp only [State.onCi, State.onCw, State.join, State.newTaken, State.newEntry, filter_fresh h4, filter_fresh h5,
    List.map_append, map_fresh h1]
  simp only [hm, hd]
  simp
  rfl

theorem completeBare_join (e : State) (tag : BitVec 16) (flags : BitVec 8) (cmd : HostCmd) (r : Result)
    (hn : e.ci.Numbered) :
    (e.join (e.entry tag flags cmd)).completeBare e.ci.nextId r = e.takenDone tag flags cmd r noDetail noDetail :=
  complete_join e tag flags cmd r noDetail noDetail hn

/-- A motion command that starts to run in the step that takes it. -/
theorem running_motion (e : State) (tag : BitVec 16) (flags : BitVec 8) (cmd : HostCmd) (hn : e.ci.Numbered)
    (hg : cmd.group = .motion) :
    (e.join (e.entry tag flags cmd)).setStage e.ci.nextId .running = e.takenMotion tag flags cmd .running := by
  simp only [State.setStage, State.takenMotion, State.takenOut, State.onCi, State.join, State.newTaken, State.newEntry,
    List.map_append, map_fresh hn.1, hg]
  simp

/-- A data command that starts to run in the step that takes it. -/
theorem running_data (e : State) (tag : BitVec 16) (flags : BitVec 8) (cmd : HostCmd) (hn : e.ci.Numbered)
    (hg : cmd.group = .data) :
    (e.join (e.entry tag flags cmd)).setStage e.ci.nextId .running = e.takenData tag flags cmd .running := by
  simp only [State.setStage, State.takenData, State.takenOut, State.onCi, State.join, State.newTaken, State.newEntry,
    List.map_append, map_fresh hn.1, hg]
  simp

theorem State.Takes.clear {s : State} {flags : BitVec 8} (h : s.Takes flags) (tag : BitVec 16) (cmd : HostCmd) :
    (s.join (s.entry tag flags cmd)).barrierClear (s.entry tag flags cmd) = true := by
  obtain ⟨h1, h2, rfl | ⟨rfl, h3⟩⟩ := h
  · simp [State.barrierClear, Taken.barrier, State.newTaken, bitOf]
  · simp [State.barrierClear, State.join, h3]

theorem State.Takes.sound {s : State} {flags : BitVec 8} (h : s.Takes flags) : flagsMalformed flags = false := by
  obtain ⟨h1, h2, rfl | ⟨rfl, h3⟩⟩ := h <;> decide

theorem State.Takes.room {s : State} {flags : BitVec 8} (h : s.Takes flags) :
    ¬Config.maxOutstanding ≤ s.ci.outstanding.length := by
  have := h.2.1
  omega

/-- A configuration command taken is run at once (R184). -/
theorem command_configuration {s : State} {flags : BitVec 8} (h : s.Takes flags) (tag : BitVec 16) {cmd : HostCmd}
    (hg : cmd.group = .configuration) :
    s.command tag flags cmd = ((s.join (s.entry tag flags cmd)).runConfig (s.entry tag flags cmd)).finish := by
  unfold State.command State.takeCmd
  rw [if_neg h.room]
  dsimp only
  rw [show (s.entry tag flags cmd).queue = .configuration from hg]
  dsimp only
  rw [if_pos (h.clear tag cmd)]

theorem find_joined {s : State} (hn : s.ci.Numbered) (tag : BitVec 16) (flags : BitVec 8) (cmd : HostCmd) :
    (s.join (s.entry tag flags cmd)).taken s.ci.nextId = some (s.entry tag flags cmd) := by
  show (s.ci.outstanding ++ [_]).find? _ = _
  have : s.ci.outstanding.find? (fun t => t.id == s.ci.nextId) = none := by
    rw [List.find?_eq_none]
    intro t ht
    have := hn.1 t ht
    simp
    omega
  rw [List.find?_append, this]
  simp [State.newTaken]

/-- The only command of the motion queue is run at once where the queue is served (R115, R184). -/
theorem command_motion {s : State} {flags : BitVec 8} (h : s.Takes flags) (tag : BitVec 16) {cmd : HostCmd}
    (hg : cmd.group = .motion) (hq : s.ci.motionQueue = []) (hs : s.motionServed = true) :
    s.command tag flags cmd = ((s.join (s.entry tag flags cmd)).runMotion (s.entry tag flags cmd)).finish := by
  unfold State.command State.takeCmd
  rw [if_neg h.room]
  dsimp only
  rw [show (s.entry tag flags cmd).queue = .motion from hg]
  dsimp only
  unfold State.serveMotion
  have hh : (s.join (s.entry tag flags cmd)).ci.motionQueue = [s.ci.nextId] := by
    simp [State.join, State.onCi, State.newTaken, hg, hq]
  rw [hh, List.head?_cons, Option.bind_some, find_joined h.1]
  dsimp only
  rw [if_pos ⟨rfl, hs, h.clear tag cmd⟩]
  rfl

/-- The only command of the data queue is served at once (R184). -/
theorem command_data {s : State} {flags : BitVec 8} (h : s.Takes flags) (tag : BitVec 16) {cmd : HostCmd}
    (hg : cmd.group = .data) :
    s.command tag flags cmd
      = ((s.join (s.entry tag flags cmd)).serveData.getD (s.join (s.entry tag flags cmd))).finish := by
  unfold State.command State.takeCmd
  rw [if_neg h.room]
  dsimp only
  rw [show (s.entry tag flags cmd).queue = .data from hg]

theorem head_data {s : State} (hn : s.ci.Numbered) (tag : BitVec 16) (flags : BitVec 8) {cmd : HostCmd}
    (hg : cmd.group = .data) (hq : s.ci.dataQueue = []) :
    ((s.join (s.entry tag flags cmd)).ci.dataQueue.head?).bind (s.join (s.entry tag flags cmd)).taken
      = some (s.entry tag flags cmd) := by
  have hh : (s.join (s.entry tag flags cmd)).ci.dataQueue = [s.ci.nextId] := by
    simp [State.join, State.onCi, State.newTaken, hg, hq]
  rw [hh, List.head?_cons, Option.bind_some, find_joined hn]

theorem entry_sound {s : State} {flags : BitVec 8} (h : s.Takes flags) (tag : BitVec 16) {cmd : HostCmd}
    (hc : ∀ k, cmd ≠ .unknown k) : (s.entry tag flags cmd).spoiled = false := by
  unfold Taken.spoiled
  simp only [State.newTaken, h.sound, Bool.false_or]

/-- The only motion command is run by its kind (R184). -/
theorem runMotion_alone {s : State} {flags : BitVec 8} (h : s.Takes flags) (tag : BitVec 16) {cmd : HostCmd}
    (hc : ∀ k, cmd ≠ .unknown k) :
    (s.join (s.entry tag flags cmd)).runMotion (s.entry tag flags cmd)
      = match (s.entry tag flags cmd).cmd with
        | .load => (s.join (s.entry tag flags cmd)).runLoad s.ci.nextId
        | .unload => (s.join (s.entry tag flags cmd)).runUnload s.ci.nextId
        | .rewind => (s.join (s.entry tag flags cmd)).runRewind s.ci.nextId
        | .locate kind target => (s.join (s.entry tag flags cmd)).runLocate s.ci.nextId kind target
        | .locateEod => (s.join (s.entry tag flags cmd)).runLocateEod s.ci.nextId
        | .space kind count => (s.join (s.entry tag flags cmd)).runSpace s.ci.nextId kind count
        | _ => (s.join (s.entry tag flags cmd)).completeBare s.ci.nextId .refusedArgument := by
  unfold State.runMotion
  rw [entry_sound h tag hc, if_neg Bool.false_ne_true]
  rfl

/-- The only command of the data queue is dispatched by its kind, where the intake order, or for a command that announces
records an UNLOAD that empties the write side, does not hold it back (R35, R40, R184). -/
theorem serveData_alone {s : State} {flags : BitVec 8} (h : s.Takes flags) (tag : BitVec 16) {cmd : HostCmd}
    (hg : cmd.group = .data) (hc : ∀ k, cmd ≠ .unknown k) (hq : s.ci.dataQueue = [])
    (hp : (if cmd.announces then s.intakeHeld else !s.pe.intake.isEmpty) = false) :
    (s.join (s.entry tag flags cmd)).serveData
      = match (s.entry tag flags cmd).cmd with
        | .streamRecord count lengths => (s.join (s.entry tag flags cmd)).headStream (s.entry tag flags cmd) count lengths
        | .writeMark count sync => (s.join (s.entry tag flags cmd)).headMark (s.entry tag flags cmd) count sync
        | .flush => (s.join (s.entry tag flags cmd)).headFlush (s.entry tag flags cmd)
        | .openWrite => (s.join (s.entry tag flags cmd)).headOpenWrite (s.entry tag flags cmd)
        | .openRead => (s.join (s.entry tag flags cmd)).headOpenRead (s.entry tag flags cmd)
        | .deliverRecord length => (s.join (s.entry tag flags cmd)).headDeliver (s.entry tag flags cmd) length
        | _ => some ((s.join (s.entry tag flags cmd)).completeBare s.ci.nextId .refusedArgument) := by
  have hp' : (if (s.entry tag flags cmd).cmd.announces = true then (s.join (s.entry tag flags cmd)).intakeHeld
      else !(s.join (s.entry tag flags cmd)).pe.intake.isEmpty) = false := hp
  unfold State.serveData
  rw [head_data h.1 tag flags hg hq]
  dsimp only
  rw [h.clear tag cmd, hp', entry_sound h tag hc]
  rfl

end Sys2Proof.Machine
end

