-- ==== Sys2Proof/Tests/Slice0.lean ====
section
/-! SUPPORT. Tests: the spec's worked examples, what the checks of Syntax refuse, and for every statement with hypotheses a
concrete state that meets them. Expected values come from the spec's text. -/

namespace Sys2Proof.Tests

open Sys2Proof.Machine

/-- The state a row answers. -/
def after (o : RowOutcome) : State :=
  match o with
  | .next t => t
  | _ => State.reset

/-! ### What Syntax's checks refuse -/

theorem test_image_beyond_cartridge : (Instr.cartridgeInserted false [(32768, 1)]).wellFormed = false := by decide
theorem test_image_not_rising : (Instr.powerOnReset true false false [(5, 1), (5, 2)]).wellFormed = false := by decide
theorem test_plan_lists_of_eight :
    (Instr.sensorPlan 0 0
      { lengthA := 2, lengthB := 0, listA := [2, 3], listB := [], scanMask := 0, flags := 0, period := 2, batch := 8
        formatMask := 0 }).wellFormed = false := by decide
theorem test_six_lengths : (Instr.streamRecord 0 0 1 [20]).wellFormed = false := by decide
theorem test_header_of_64_bytes :
    (Instr.loopbackReport { valid := true, bytes := zeros 63 } { rows := 0, maxCorrected := 0 }).wellFormed = false := by decide
theorem test_at_most_256_rows :
    (Instr.verifyReport 0 { valid := true, bytes := zeros 64 } { rows := 257, maxCorrected := 0 }).wellFormed = false := by
  decide
theorem test_at_most_16_corrected :
    (Instr.receptionReport 0 0 false true { rows := 0, maxCorrected := 17 }).wellFormed = false := by decide
theorem test_no_mark_60001 :
    (Instr.receptionReport 0 60001 false true { rows := 0, maxCorrected := 0 }).wellFormed = false := by decide
theorem test_no_pass_64 :
    (Instr.headerReport 64 0 true { valid := true, bytes := zeros 64 } []).wellFormed = false := by decide
theorem test_at_most_4096_entries :
    (Instr.headerReport 0 0 true { valid := true, bytes := zeros 64 } (List.replicate 4097 0)).wellFormed = false := by
  simp only [Instr.wellFormed, List.length_replicate]; decide
theorem test_coder_takes_256 : (Instr.coderTakeBytes 257).wellFormed = false := by decide
theorem test_channel_takes_16384 : (Instr.dramPortGrant (.taken 16385)).wellFormed = false := by decide
theorem test_channel_delivers_16384 :
    (Instr.dramPortGrant (.delivered (List.replicate 16385 0))).wellFormed = false := by
  simp only [Instr.wellFormed, List.length_replicate]; decide
theorem test_no_word_spells_a_command : decodeTableWord 32 0x12345678 = none := by decide

/-! ### The spec's examples -/

/-- R15. -/
theorem test_crc_of_nine_digits : crc32 [49, 50, 51, 52, 53, 54, 55, 56, 57] = 0xCBF43926#32 := by decide +kernel
/-- R15. -/
theorem test_crc_of_no_bytes : crc32 [] = 0#32 := by decide

/-- "Example: coding a 20-byte record". -/
theorem test_twenty_byte_record :
    (codeChunk true [] 0 [] [65, 66, 67, 68, 65, 66, 67, 68, 65, 66, 67, 68, 69, 69, 69, 69, 69, 69, 69, 81]).output
      = [11, 0, 3, 65, 66, 67, 68, 208, 3, 68, 69, 0, 81] := by decide
/-- The same example, the three bytes XYZ: header value 32,771. -/
theorem test_xyz_is_stored : (codeChunk true [] 0 [] [88, 89, 90]).output = [3, 128, 88, 89, 90] := by decide

/-- "Example: one stripe and its neighbours on tape": position 2,042 of pass 1 starts at mark 47,748. -/
theorem test_position_2042_of_pass_1 : placeAt 1 (6 * 2042) = { pass := 1, mark := 47748 } := by decide
/-- The same example: no space is left with 1,048,432 data bytes and 5 entries. -/
theorem test_stripe_full : freeSpace 1048432 5 = 0 := by decide
/-- The same example: entry 4 lies at bytes 1,048,496 to 1,048,511. -/
theorem test_entry_four_place : entryOffset 4 = 1048496 := by decide
/-- "Example: a locate on a reverse pass": 12 marks before 48,750 is 48,762. -/
theorem test_before_on_a_reverse_pass : ({ pass := 1, mark := 48750 } : TapePos).before 12 = { pass := 1, mark := 48762 } := by
  decide
/-- "Example: a missing stripe and its retry": the retry reads from 1,194. -/
theorem test_retry_point : retryPoint { pass := 2, mark := 1206 } = { pass := 2, mark := 1194 } := by decide

/-- "Example: one evaluation and the next": sample 640, F 430, target 3 in the writing direction. -/
theorem test_rate_sample : rateSample 25 = 640 := by decide
/-- The same example. -/
theorem test_first_evaluation : targetLevel 430 .writeOpen 64 50 0 5 = 3 := by decide
/-- The same example: with S fallen to 47 the target is 2. -/
theorem test_queue_below_three_quarters : targetLevel 430 .writeOpen 64 47 0 5 = 2 := by decide
/-- "Example: a short run and its penalty": F 561 with S = 7 gives target 2. -/
theorem test_short_queue : targetLevel 561 .writeOpen 64 7 0 5 = 2 := by decide

/-- R166: an index of 650 set in CLEAN_REQUIRED gives CLEAN_ADVISED. -/
theorem test_set_health_650 :
    (after (exec (.setHealth 0 0 650)
      (State.reset.onHm fun h => { h with ci := 750, health := .cleanRequired }))).hm.health = .cleanAdvised := by decide
/-- R166: an index of 350 set in CLEAN_ADVISED gives GOOD. -/
theorem test_set_health_350 :
    (after (exec (.setHealth 0 0 350)
      (State.reset.onHm fun h => { h with ci := 450, health := .cleanAdvised }))).hm.health = .good := by decide

/-- "Example: crossing into CLEAN_REQUIRED": the latest values of inputs 4 to 7, CI 695, level 5. -/
def dirtyHead : State :=
  { State.reset with
    hm := { State.reset.hm with ci := 695, health := .cleanAdvised }
    rg := { State.reset.rg with level := 5 }
    ss := { State.reset.ss with
      latest := [none, none, none, none, some (2510, 0), some (2460, 0), some (2300, 0), some (2480, 0), none, none, none, none] } }
/-- The same example: the first report takes the index to 708 and the state to CLEAN_REQUIRED; the level becomes 3. -/
theorem test_crossing :
    let t := dirtyHead.score true true (some { rows := 0, maxCorrected := 9 }) 40210
    t.hm.ci = 708 ∧ t.hm.health = .cleanRequired ∧ t.rg.level = 3 ∧ t.pins.panel = true := by decide
/-- R163: a clean stripe at 600 leaves CLEAN_REQUIRED for CLEAN_ADVISED. -/
theorem test_way_back : healthNext 599 .cleanRequired = .cleanAdvised ∧ healthNext 600 .cleanRequired = .cleanRequired := by
  decide

/-- A region descriptor for tests. -/
def region (kind : RegionKind) (base pages : Nat) (mode : HoldMode := .wait) : Descriptor :=
  { base := base, pages := pages, kind := kind, mode := mode, limit := 20, allowDrive := true, allowLink := true,
    enable := true }

/-- Reset with descriptors in effect. -/
def mapped (ds : List Descriptor) : State :=
  State.reset.onBpu fun b => { b with effective := ds ++ List.replicate (16 - ds.length) Descriptor.blank }

/-- "Example: a full ring and a coalesced note": 128 slots, head 40. -/
def ring39 (head : Nat) : State :=
  { mapped [region .completion 0x10000 1] with cw := { State.reset.cw with head := head, tail := 39 } }
/-- The same example: with tail 39 the ring is full; head 42 makes room. -/
theorem test_ring_full : (ring39 40).completionFull = true ∧ (ring39 42).completionFull = false := by decide
/-- The same example: two THERMAL_PAUSE notes are one item with count 2. -/
theorem test_note_coalesces :
    ((((ring39 40).note .thermalPause noDetail noDetail).note .thermalPause noDetail noDetail).cw.pending.map
      (·.value)) = [2] := by decide

/-- "Example: opening the pack aperture": a commit of POOL while a session is open is refused with code 5. -/
theorem test_pool_commit_refused :
    ((mapped [region .pool 0x10000000 16384]).onSpm fun m => { m with direction := .writeOpen }).judgeCommit 0
      ([0, 0, 0, 16, 0, 64, 0, 0, 5, 0, 0, 3, 1, 0, 0, 0]) = some 5 := by decide
/-- "Example: the default plan filling the ring": sequence 0 is on list A, the next on list B. -/
theorem test_first_sequences :
    ((after (exec .sequenceStart State.reset)).ss.sequence.map (·.entries)) = some [2, 3, 4, 5, 6, 7, 8]
    ∧ ((after (exec .sequenceStart (after (exec .sequenceStart State.reset)))).ss.sequence.map (·.entries))
      = some [2, 3, 0, 1, 9, 10, 11] := by decide
/-- R123: an arm 200 below the target raises its torque by 75, held to 64; 100 above lowers it by 37 (div truncates). -/
theorem test_torque_clamped : nextTorque 1024 1848 = 1088 ∧ nextTorque 1024 2148 = 987 := by decide
/-- "Example: the save after one session": pass entry 2 lies in pages 10 to 13. -/
theorem test_pass_pages : passPages 2 = [10, 11, 12, 13] := by decide

/-! ### Witnesses: concrete states that meet the hypotheses of each statement, at the bounds of each clause -/

/-- `n` outstanding commands of data kind, numbered from 0. -/
def waitingCommands (n : Nat) : List Taken :=
  (List.range n).map fun k =>
    { id := k, tag := 0, flags := 0, malformed := false, cmd := .flush, queue := .data, stage := .running }

/-- Reset with `n` commands outstanding. -/
def crowded (n : Nat) : State := State.reset.onCi fun c => { c with outstanding := waitingCommands n, nextId := n }

theorem witness_EmptyQueueTicks : State.reset.pending = [] := rfl

theorem witness_EveryStepKeepsTheInvariant :
    State.reset.Inv ∧ step State.reset = .next (State.reset.elapse 1) := by
  refine ⟨?_, rfl⟩
  unfold State.Inv State.MemoryOk Ci.Numbered State.LevelOk Spm.Fits
  refine ⟨by decide, by decide, by decide, by decide, by decide, by decide, by decide, ?_⟩
  decide

theorem witness_CommandsLeaveTheQueue :
    exec (.queryHealth 0 0) State.reset = .next (after (exec (.queryHealth 0 0) State.reset)) := rfl

theorem witness_RowsThatLeaveMemory :
    exec (.cartridgeInserted false []) State.reset = .next (after (exec (.cartridgeInserted false []) State.reset))
    ∧ exec .servoLock State.reset = .next (after (exec .servoLock State.reset))
    ∧ exec (.dramPortGrant .quiet) State.reset = .next (after (exec (.dramPortGrant .quiet) State.reset)) :=
  ⟨rfl, rfl, rfl⟩
/-- The frames of the upstream rows: canonical memories and no page write in flight. -/
theorem witness_RowsThatLeaveMemory_frames :
    State.reset.MemoryOk ∧ ∀ op k rest, State.reset.cml.op = some op → op.steps ≠ .write k :: rest :=
  ⟨by unfold State.MemoryOk; decide, fun _ _ _ h => by cases h⟩

/-- The port's next transfer lies one byte beyond the DRAM, and just inside it. -/
def clearing (a : Nat) : State := State.reset.onBpu fun b => { b with ring := [.clearPost a []] }
theorem witness_OnlyAGrantCanStop :
    (∀ flow, Instr.servoLock ≠ .dramPortGrant flow)
    ∧ (clearing 536870905).choice = some .ring ∧ Config.dramSize < (clearing 536870905).reach .ring
    ∧ ¬Config.dramSize < (clearing 536870904).reach .ring := by
  refine ⟨fun _ h => (by cases h), ?_⟩
  decide

theorem witness_FinishOfQuietState : State.reset.Quiet := by
  unfold State.Quiet
  decide

/-- The hypothesis of every statement about a command taken: the flags 0 with 15 outstanding, 1 with none. -/
theorem witness_Takes : (crowded 15).Takes 0 ∧ State.reset.Takes 0 ∧ State.reset.Takes 1 := by
  unfold State.Takes Ci.Numbered
  decide

theorem witness_MalformedFlagsRefused :
    (crowded 15).ci.Numbered ∧ (crowded 15).ci.outstanding.length < Config.maxOutstanding ∧ 2 ≤ (2#8).toNat
    ∧ bitOf 2 0 = false ∧ bitOf 254 0 = false := by
  unfold Ci.Numbered
  decide

/-- A plan at its bounds, and one that fails. -/
def goodPlan : PlanArgs :=
  { lengthA := 3, lengthB := 1, listA := [2, 3, 11, 0, 0, 0, 0, 0], listB := [0, 0, 0, 0, 0, 0, 0, 0], scanMask := 0x800
    flags := 1, period := 100, batch := 8, formatMask := 0x80 }
/-- A batch of 7 with the alternate flag. -/
def oddPlan : PlanArgs := { goodPlan with batch := 7 }
/-- One list of one input, period 1, batch 1. -/
def smallPlan : PlanArgs := { goodPlan with lengthA := 1, scanMask := 0, flags := 0, period := 1, batch := 1 }
theorem witness_SensorPlanApplied :
    planOf true oddPlan = none ∧ (planOf true goodPlan).isSome = true ∧ (planOf false smallPlan).isSome = true := by decide
theorem witness_AcceptedPlansPassTheChecks :
    goodPlan.ok = true ∧ (planOf true goodPlan).isSome = true ∧ smallPlan.ok = true ∧ (planOf false smallPlan).isSome = true := by
  decide

theorem witness_HealthEntryEffects :
    State.reset.hm.health = .good ∧ Health.cleanRequired ≠ State.reset.hm.health
    ∧ (State.reset.cw.pending.any fun i => i.cmd.isNone && i.code == 3) = false
    ∧ (({ State.reset.hm with ci := 600, health := .cleanRequired } : Hm).Settled) ∧ 600 ≤ 599 + 1 := by
  unfold Hm.Settled
  decide

theorem witness_LoopbackRuns :
    ∃ l, (State.reset.onTte fun t => { t with loopback := some { cmd := 0, slot := 0, fetched := 1048576, sent := 1048576 } }).tte.loopback
        = some l ∧ Config.stripeSize ≤ l.sent := ⟨_, rfl, by decide⟩

/-- The port takes an access of either initiator as it arrives. -/
theorem witness_PortFree : State.reset.PortFree .drive ∧ State.reset.PortFree .link :=
  ⟨⟨rfl, rfl, rfl, rfl, fun r => (by cases r <;> decide)⟩, rfl, rfl, rfl, rfl, fun r => by cases r <;> decide⟩

theorem witness_DescriptorBytesCaptured :
    (0#3).toNat % widthBytes .w8 = 0 ∧ (4#3).toNat % widthBytes .w4 = 0 ∧ (7#3).toNat % widthBytes .w1 = 0 := by decide

/-- Sixteen bytes of a descriptor: base 1 MiB, one page, a kind, mode LIMIT, a limit, both initiators, enabled. -/
def descriptorBytes (kind limit : Byte) : List Byte := [0, 0, 16, 0, 1, 0, 0, 0, kind, 1, limit, 3, 1, 0, 0, 0]
theorem witness_CommitsTakeEffectOrChangeNothing :
    let staged := State.reset.onBpu fun b => { b with captured := layOver b.captured 0 (descriptorBytes 6 20) }
    staged.PortFree .drive
    ∧ staged.judgeCommit 0 (((layOver staged.bpu.captured 8 (toLe 8 0x103140106)).drop 0).take 16) = none
    ∧ staged.busy .drive = false ∧ staged.bpu.rewrites = 0
    ∧ staged.judgeCommit 0 (((layOver staged.bpu.captured 8 (toLe 8 0x103000106)).drop 0).take 16) = some 2 := by
  refine ⟨⟨rfl, rfl, rfl, rfl, fun r => (by cases r <;> decide)⟩, ?_⟩
  decide
theorem witness_AcceptedCommitsAreSound :
    (descriptorBytes 6 20).length = 16 ∧ State.reset.judgeCommit 0 (descriptorBytes 6 20) = none
    ∧ State.reset.judgeCommit 15 (zeros 16) = none := by decide

theorem witness_NotesAreCountedUp :
    (∀ i ∈ State.reset.cw.pending, i.cmd = none → i.code ≠ NoteKind.mapRefused.code)
    ∧ ∃ i ∈ (State.reset.note .mapRefused noDetail noDetail).cw.pending, i.cmd = none ∧ i.code = NoteKind.mapRefused.code := by
  decide

theorem witness_MapWordsAreCaptured :
    Width.w4 ≠ .w8 ∧ (0#2).toNat % widthBytes .w4 = 0 ∧ (3#2).toNat % widthBytes .w1 = 0 := by decide
/-- After reset the port is free and both memories are canonical; a write of eight bytes lies at the first byte of a word. -/
theorem witness_MapWordsAreCaptured_port :
    State.reset.PortFree .drive ∧ State.reset.MemoryOk ∧ (0#2).toNat % widthBytes .w8 = 0 := by
  refine ⟨⟨rfl, rfl, rfl, rfl, fun r => ?_⟩, by unfold State.MemoryOk; decide, by decide⟩
  cases r <;> decide
/-- R172: a write of eight bytes captures both words; a reset word of 1 beside the mask starts a controller reset, which zeroes
the mask just captured (log entry 131). -/
theorem test_eight_bytes_capture_two_words :
    (let t := after (exec (.completionHeadWrite .drive 0 .w8 0x0000000700000005) State.reset);
      t.cw.head = 5 ∧ t.ss.head = 7)
    ∧ (after (exec (.attentionMaskWrite .drive 0 .w8 0x0000000200000003) State.reset)).cw.mask = 3
    ∧ (after (exec (.attentionMaskWrite .drive 0 .w8 0x0000000100000003) State.reset)).cw.mask = 0 := by decide +kernel

/-- A link operation with its first transaction in progress. -/
def linkOp (kind : LinkKind) (steps : List Transaction) (retries : Nat) (wait : Option Nat) (got : List Byte) : LinkOp :=
  { kind := kind, steps := steps, retries := retries, wait := wait, got := got, aborted := false }
/-- A pack write of the link chip held under the first descriptor. -/
def heldAccess (who : Initiator) (timer : Option Nat) : Held :=
  { access := writeOf who 0x100000 .w8 0, why := .pack, descriptor := some 0, timer := timer }
theorem witness_ControllerResetLeaves :
    State.reset.cml.op = none
    ∧ (∀ op ∈ [linkOp .loadRead [.read 0 192] 0 none [], linkOp (.invalidate 0) [.write 2] 0 none [],
        linkOp .save [.write 2] 0 none [], linkOp .counters [.write 1] 0 none []],
      (State.reset.onCml fun c => { c with op := some op }).cml.op = some op)
    ∧ (∃ h ∈ (State.reset.onBpu fun b => { b with held := [heldAccess .link none] }).bpu.held,
        h.access = writeOf .link 0x100000 .w8 0)
    ∧ UpReq.access (readOf .drive 0 .w8) ∈ (State.reset.onBpu fun b => { b with upstream := [.access (readOf .drive 0 .w8)] }).bpu.upstream
    ∧ State.reset.busy .drive = false := by decide

theorem witness_LinkMayNotWriteTheMap :
    State.reset.busy .link = false ∧ State.reset.busy .drive = false ∧ State.reset.bpu.rewrites = 0
    ∧ 536866816 ≤ 536866816 ∧ 536866816 + 272 ≤ 536867088 ∧ 536870911 < 536870912 := by decide
/-- R172: the byte at offset 271 is the drive processor's to write, the one at offset 272 is not. -/
theorem test_map_page_beyond_272 :
    (after (exec (.upstreamWrite .drive (536866816 + 271) .w1 1) State.reset)).bpu.driveAnswer.map (·.okay) = some true
    ∧ (after (exec (.upstreamWrite .drive (536866816 + 272) .w1 1) State.reset)).bpu.driveAnswer.map (·.okay) = some false := by
  decide

theorem witness_MalformedAccessesRefused :
    State.reset.busy .drive = false ∧ 1 % widthBytes .w2 ≠ 0 ∧ 536870912 ≤ Config.dramSize ∧ (4#3).toNat % widthBytes .w8 ≠ 0
    ∧ (1#2).toNat % widthBytes .w2 ≠ 0 ∧ (4 + (0#2).toNat) % widthBytes .w8 ≠ 0 := by decide

/-- A state with the four lines in use. -/
def fourLines : State :=
  State.reset.onBpu fun b => { b with upstream := [.line 0 [], .line 8 [], .line 16 [], .line 24 []] }
theorem witness_UpstreamWritesByKind_posted :
    State.reset.Arrives .drive 0 .w8 ∧ 0 < Config.mapPage
    ∧ (∀ i d, State.reset.classify 0 = .region i d → d.allows .drive = true ∧ (d.kind = .plain ∨ d.kind = .command))
    ∧ (State.reset.bpu.post (writeOf .drive 0 .w8 1)).isSome = true
    ∧ (fourLines.bpu.post (writeOf .drive 32 .w8 1)).isSome = false ∧ fourLines.Arrives .drive 32 .w8 := by
  refine ⟨by unfold State.Arrives; decide, by decide, fun i d h => ?_, by decide, by decide, by unfold State.Arrives; decide⟩
  rw [(by decide : State.reset.classify 0 = .unmapped)] at h
  cases h

/-- Each kind of region, at its first and last byte. -/
theorem witness_UpstreamWritesByKind_regions :
    let s := mapped [region .completion 0x1000 1, region .sensor 0x2000 1, region .unpack 0x3000 1, region .pool 0x800000 2048]
    s.Arrives .drive 0x1FFF .w1 ∧ s.classify 0x1FFF = .region 0 (region .completion 0x1000 1)
    ∧ s.classify 0x2000 = .region 1 (region .sensor 0x2000 1) ∧ s.classify 0x3FFF = .region 2 (region .unpack 0x3000 1)
    ∧ s.classify 0x800000 = .region 3 (region .pool 0x800000 2048) ∧ (region .unpack 0x3000 1).allows .drive = true
    ∧ ({ region .plain 0 1 with allowDrive := false } : Descriptor).allows .drive = false ∧ s.PortFree .drive := by
  refine ⟨by unfold State.Arrives; decide, by decide, by decide, by decide, by decide, rfl, rfl, rfl, rfl, rfl, rfl, ?_⟩
  intro r
  cases r <;> decide
/-- A write into an UNPACK region and one into the pool wait behind a posted line. -/
theorem witness_UpstreamWritesByKind_waits :
    let s := (mapped [region .unpack 0x3000 1, region .pool 0x800000 2048]).onBpu fun b => { b with upstream := [.line 0 []] }
    s.Arrives .link 0x3000 .w8 ∧ s.Arrives .drive 0x800000 .w8 ∧ s.bpu.upstream ≠ []
    ∧ s.classify 0x3000 = .region 0 (region .unpack 0x3000 1) ∧ s.classify 0x800000 = .region 1 (region .pool 0x800000 2048)
    ∧ (region .unpack 0x3000 1).allows .link = true ∧ (region .pool 0x800000 2048).allows .drive = true := by
  refine ⟨by unfold State.Arrives; decide, by unfold State.Arrives; decide, ?_⟩
  decide
/-- R175, R176: what waits keeps its class: an UNPACK write is performed though its region is gone, and a POOL write is not where
its address has become an UNPACK region and the pool has no slot. -/
theorem test_waiting_write_keeps_its_class :
    let wait (d : Descriptor) : State :=
      after (exec (.upstreamWrite .link 0x800000 .w1 7) ((mapped [d]).onBpu fun b => { b with upstream := [.line 0 []] }))
    let serve (s : State) (ds : List Descriptor) : State :=
      let u := after (exec (.dramPortGrant .quiet) s)
      after (exec (.dramPortGrant .quiet) (u.onBpu fun b => { b with effective := ds }))
    let t := serve (wait (region .unpack 0x800000 1)) []
    let p := serve (wait (region .pool 0x800000 2048)) [region .unpack 0x800000 1]
    t.dram = [(0x800000, 7)] ∧ t.bpu.linkAnswer = some { okay := true, bytes := [] }
    ∧ p.dram = [] ∧ p.bpu.linkAnswer = some { okay := false, bytes := [] } := by decide +kernel

theorem witness_PostedBytesAreSeen :
    12 % widthBytes .w4 = 0
    ∧ (fourLines.bpu.upstream.filterMap fun r => match r with | .line k _ => some k | .access _ => none).Nodup
    ∧ (fourLines.bpu.post (writeOf .drive 12 .w4 1)).isSome = true ∧ (State.reset.bpu.post (writeOf .drive 12 .w4 1)).isSome = true := by
  decide

/-- A PACK and an UNPACK aperture of one page. -/
def apertures : State := mapped [region .pack 0x100000 1, region .unpack 0x200000 1]
theorem witness_PackWriteExamined :
    apertures.Arrives .link 0x100000 .w8 ∧ apertures.classify 0x100000 = .region 0 (region .pack 0x100000 1)
    ∧ apertures.classify 0x100FFF = .region 0 (region .pack 0x100000 1) ∧ (region .pack 0x100000 1).allows .link = true := by
  refine ⟨by unfold State.Arrives; decide, ?_⟩
  decide

/-- A Pack Engine with a record of 20 bytes open. -/
def oneRecord : Pe := State.reset.pe.takeStream 0 [20] false
theorem witness_IntakeAccounts :
    20 ≤ oneRecord.remaining ∧ oneRecord.next = none ∧ State.reset.pe.next = none := by decide

theorem witness_UpstreamReads :
    apertures.Arrives .link 0x200000 .w8 ∧ apertures.classify 0x200000 = .region 1 (region .unpack 0x200000 1)
    ∧ (region .unpack 0x200000 1).allows .link = true ∧ (region .pack 0x100000 1).kind ≠ .unpack := by
  refine ⟨by unfold State.Arrives; decide, ?_⟩
  decide
theorem witness_UpstreamReads_plain :
    apertures.PortFree .drive ∧ ∀ i d, apertures.classify 0 = .region i d → d.kind ≠ .unpack ∨ d.allows .drive = false := by
  refine ⟨⟨rfl, rfl, rfl, rfl, fun r => (by cases r <;> decide)⟩, fun i d h => ?_⟩
  rw [(by decide : apertures.classify 0 = .unmapped)] at h
  cases h

theorem witness_HoldLimitRunsOut :
    ((State.reset.onBpu fun b => { b with held := [heldAccess .link (some 80)] }).bpu.held.find? fun k =>
        k.access.who == .link && k.timer.isSome) = some (heldAccess .link (some 80)) := by decide

/-- The ring has waited out 64 grants while an access waits. -/
def starved : State :=
  State.reset.onBpu fun b => { b with upstream := [.access (readOf .drive 0 .w8)], starve := { b.starve with ring := 64 } }
theorem witness_ArbiterChoice :
    starved.choice = some .ring ∧ starved.waits .upstream = true ∧ 64 ≤ starved.bpu.starve.get .ring
    ∧ State.reset.choice = some .ring ∧ (∀ q, State.reset.waits q = true → State.reset.bpu.starve.get q < 64)
    ∧ State.reset.waits .upstream = false ∧ fourLines.choice = some .upstream ∧ fourLines.tteUrgent = false := by
  refine ⟨by decide, by decide, by decide, by decide, fun q => (by cases q <;> decide), by decide, by decide, by decide⟩

theorem witness_GrantServesUpstream :
    fourLines.choice = some .upstream ∧ fourLines.bpu.upstream = .line 0 [] :: [.line 8 [], .line 16 [], .line 24 []]
    ∧ (State.reset.onBpu fun b => { b with upstream := [.access (readOf .drive 0 .w8)] }).choice = some .upstream := by decide
/-- A write classified as a POOL write and one that passes wait alone for the port. -/
theorem witness_GrantServesUpstream_writes :
    ∀ b ∈ [true, false],
      let a : Access := { writeOf .link 0x3000 .w8 7 with pool := b }
      let s := State.reset.onBpu fun u => { u with upstream := [.access a] }
      s.choice = some .upstream ∧ s.bpu.upstream = .access a :: [] ∧ a.write = true ∧ a.addr < Config.mapPage := by decide

theorem witness_RingsAreServed :
    ((ring39 42).note .thermalPause noDetail noDetail).cw.pending ≠ [] ∧ (ring39 42).ringSlots .completion 32 ≠ 0
    ∧ ((ring39 42).note .thermalPause noDetail noDetail).writeRecord.cw.tailDue.isSome = true
    ∧ (crowded 15).ci.outstanding.length < 16 ∧ (mapped [region .command 0x10000 1]).ringSlots .command 64 ≠ 0 := by decide
/-- Place 6 of the arbiter asks for each of its transfers, the rings lying in DRAM. -/
theorem witness_RingsAreServed_grants :
    let s := mapped [region .command 0x10000 1, region .completion 0x20000 1, region .sensor 0x30000 1]
    (∀ r ∈ [RingReq.zeroDescriptor 15, .zeroWord 268, .zeroWord 256, .zeroWord 260, .zeroWord 264, .clearPost 536870904 [0], .readPost,
        .readSlot, .completion, .status, .sensor 0 []],
      let u := s.onBpu fun b => { b with ring := [r] }
      u.choice = some .ring ∧ u.bpu.ring = r :: [])
    ∧ Memory.wf s.dram = true ∧ Memory.wf s.cartridge = true ∧ 536870904 + 8 ≤ Config.dramSize
    ∧ s.ringAddr .command 64 s.ci.intake + 64 ≤ Config.dramSize ∧ s.ringSlots .command 64 ≠ 0
    ∧ s.ringAddr .completion 32 s.cw.tail + 32 ≤ Config.dramSize ∧ s.ringAddr .sensor 32 s.ss.tail + 32 ≤ Config.dramSize := by
  decide +kernel
/-- R183: a valid post word makes the CI-unit ask for its slot. -/
theorem test_valid_post_asks_for_its_slot :
    let s := (mapped [region .command 0x10000 1]).onBpu fun b => { b with ring := [.readPost] }
    (after (exec (.dramPortGrant .quiet) (s.onDram fun _ => [(0x1003F, 1)]))).bpu.ring.contains .readSlot = true
    ∧ (after (exec (.dramPortGrant .quiet) s)).bpu.ring.contains .readSlot = false := by decide +kernel

/-- Reset in another motion state. -/
def inState (g : MotionState) : State := State.reset.onMc fun m => { m with state := g }
/-- A stripe boundary at the beginning of tape. -/
def atStart : DsPos := { stripe := 0, record := 0, boundary := true, carried := { pass := 0, mark := 0 }, below := false }
/-- A tape in READY at the beginning of tape. -/
def readyTape : State := State.reset.onMc fun m => { m with state := .ready, pos := some { pass := 0, mark := 0 }, dsPos := some atStart }
/-- A directory with end of data at this stripe, with nothing else in it. -/
def directoryTo (stripe : Nat) : Directory :=
  { generation := 6, eodStripe := stripe, eodRecord := stripe, complete := true, passes := List.replicate 64 none, index := [] }
/-- A tape in READY whose directory has this condition. -/
def withDirectory (c : Condition) (stripe : Nat) : State :=
  readyTape.onCml fun k => { k with condition := c, recorded := .valid, directory := some (directoryTo stripe) }
/-- The state with a motion command in progress. -/
def withJob (s : State) (kind : MotionKind) (g : JobStage) : State := s.onMc fun m => { m with job := some (Job.new 0 kind g) }

theorem witness_PowerOnAndCartridge :
    State.reset.mc.state = .empty ∧ (inState .present).mc.state = .present
    ∧ (withJob (inState .present) .load .memory).mc.state = .present := by decide
/-- R6: the bytes of DRAM are still there after power-on reset. -/
theorem test_power_on_keeps_dram :
    (after (exec (.powerOnReset true false false []) (State.reset.onDram fun _ => [(7, 1)]))).dram = [(7, 1)] := by decide

theorem witness_LoadAndUnloadBegin :
    (∀ g ∈ [MotionState.empty, .present, .ready, .fault, .stranded],
      (inState g).motionServed = true ∧ (inState g).ci.motionQueue = [] ∧ (inState g).spm.direction = .none
      ∧ (inState g).pe.intake = [])
    ∧ ((inState .ready).onSpm fun m => { m with direction := .writeOpen }).motionServed = true := by decide

/-- R136: a load read asked for while another operation is in flight waits, and begins when that one ends. -/
theorem test_load_read_waits :
    let busy := (inState .present).onCml fun c => { c with op := some (linkOp .save [.write 1] 0 none []) }
    let s := after (exec (.load 0 0) busy)
    let t := after (exec (.i2cTransactionDone .ack) s)
    s.cml.op.map (·.kind) = some .save ∧ s.mc.job.map (·.stage) = some .memory
    ∧ t.cml.op.map (·.kind) = some .loadRead ∧ t.mc.job.map (·.stage) = some .memory := by decide +kernel

theorem witness_MovesBegin :
    State.reset.moveRefused = true ∧ readyTape.moveRefused = false ∧ readyTape.motionServed = true
    ∧ readyTape.spm.direction = .none ∧ (readyTape.onSpm fun m => { m with direction := .writeOpen }).moveRefused = true := by
  decide

theorem witness_LocatesGoWhereTheDirectorySays :
    (withDirectory .valid 5).validDirectory = some (directoryTo 5) ∧ (directoryTo 5).eodStripe ≤ 5 ∧ 4 < (directoryTo 5).eodStripe
    ∧ readyTape.validDirectory = none ∧ readyTape.mc.dsPos = some atStart ∧ atStart.stripe ≤ 0
    ∧ ({ atStart with stripe := 3 } : DsPos).stripe = 3 ∧ 2 < ({ atStart with stripe := 3 } : DsPos).stripe
    ∧ readyTape.cml.condition = .absent ∧ (withDirectory .stale 5).cml.condition = .stale
    ∧ (withDirectory .stale 5).cml.directory = some (directoryTo 5) := by decide

/-- A SPACE of this many records or filemarks from record 3. -/
def spaceOf (filemarks : Bool) (count : Int) : SpacePlan := { filemarks := filemarks, count := count, origin := 3 }
/-- A directory to record 5 with filemarks at records 2 and 4, its index complete or not. -/
def markedDirectory (complete : Bool) : Directory := { directoryTo 5 with complete := complete, index := [(2, 2), (4, 4)] }
/-- Both directions of both kinds, an index complete and not, a filemark in the span and none, past its end and within it. -/
theorem witness_LocatesGoWhereTheDirectorySays_space :
    (∀ k ∈ [true, false], ((withDirectory .valid 5).onCml fun c => { c with directory := some (markedDirectory k) }).validDirectory
        = some (markedDirectory k) ∧ (markedDirectory k).complete = k)
    ∧ 0 < (spaceOf true 1).count ∧ (spaceOf true (-2)).count < 0 ∧ (spaceOf false 1).filemarks = false ∧ 3 < (markedDirectory false).eodRecord
    ∧ (let marks := (markedDirectory true).index.map (·.1);
      (marks.filter fun f => 3 ≤ f ∧ f < min (3 + 2) 5) = [4] ∧ (marks.filter fun f => 3 ≤ f ∧ f < min (3 + 1) 5) = []
      ∧ (marks.filter fun f => 3 - 1 ≤ f ∧ f < 3).getLast? = some 2 ∧ (marks.filter fun f => 3 - 0 ≤ f ∧ f < 3) = []
      ∧ (marks.filter fun f => 3 ≤ f)[1 - 1]? = some 4 ∧ (marks.filter fun f => 3 ≤ f).length < 2
      ∧ (marks.filter fun f => f < 3).reverse[1 - 1]? = some 2 ∧ (marks.filter fun f => f < 3).length < 2)
    ∧ ((markedDirectory false).index.filter fun e => e.1 < 3).getLast? = some (2, 2)
    ∧ ((directoryTo 5).index.filter fun e => e.1 < 3) = []
    ∧ (readyTape.onMc fun m => { m with dsPos := some { atStart with record := 3 } }).mc.dsPos = some { atStart with record := 3 }
    ∧ (withDirectory .valid 5).cml.condition = .valid ∧ (markedDirectory true).eodRecord ≤ 5 ∧ 4 < (markedDirectory true).eodRecord := by
  decide
/-- R131: from record 3 a SPACE forward by 2 records stops past the filemark at record 4, at the end of data, 2 records on. -/
theorem test_space_stops_past_a_filemark :
    let s := (withDirectory .valid 5).onCml fun c => { c with directory := some (markedDirectory true) }
    let t := after (exec (.space 0 0 0 2) (s.onMc fun m => { m with dsPos := some { atStart with stripe := 3, record := 3 } }))
    (t.mc.job.bind (·.finish)).map (fun f => (f.result, f.detailA.take 4)) = some (.filemark, dv 4 2) := by decide +kernel

theorem witness_LinkTransactions :
    (linkOp .save [.write 10, .write 2] 2 none []).wait = none ∧ (linkOp .save [.write 10, .write 2] 2 none []).retries < 3
    ∧ 3 ≤ (linkOp .save [.write 10] 3 none []).retries
    ∧ (linkOp .loadRead [.read 256 4096, .read 4352 64] 0 none [1]).got ≠ [] ∧ [Transaction.read 4352 64] ≠ []
    ∧ LinkKind.save ≠ .loadRead ∧ (linkOp .save [.write 10] 1 (some 2000) []).wait = some 2000 := by decide
/-- The last transaction of each operation in progress, and a load read's first. -/
theorem witness_LinkTransactions_ends :
    (∀ op ∈ [linkOp .loadRead [.read 0 192] 0 none [], linkOp .loadRead [.read 13568 64] 0 none [1],
        linkOp (.invalidate 0) [.write 2] 0 none [], linkOp .save [.write 2] 3 none [], linkOp .counters [.write 1] 0 none []],
      (State.reset.onCml fun c => { c with op := some op }).cml.op = some op ∧ op.wait = none ∧ op.steps.length = 1)
    ∧ (∀ c ∈ [Condition.valid, .stale, .absent],
      ((withJob (withDirectory c 5) .unload .saving).onCml fun k =>
        { k with op := some (linkOp .save [.write 2] 0 none []) }).mc.job = some (Job.new 0 .unload .saving)) := by decide
/-- R119: a save whose UNLOAD a fault has ended leaves the slow recovery of the next UNLOAD where it is. -/
theorem test_late_save_moves_no_recovery :
    let s := (withJob (withDirectory .valid 5) .unload .recoverWind).onCml fun k =>
      { k with op := some (linkOp .save [.write 2] 0 none []) }
    let t := after (exec (.i2cTransactionDone .ack) s)
    t.mc.job.map (·.stage) = some .recoverWind ∧ t.cml.op = none ∧ t.cml.recorded = .valid := by decide +kernel
/-- R139: an unusable header on a blank cartridge memory ends the load read with no directory. -/
theorem test_load_read_of_kind_0 :
    let s := (withJob (inState .present) .load .memory).onCml fun c => { c with op := some (linkOp .loadRead [.read 0 192] 0 none []) }
    let t := after (exec (.i2cTransactionDone .ack) s)
    t.cml.condition = .absent ∧ t.cml.op = none ∧ t.mc.state = .threading := by decide
/-- R140, R168: a cleaning cartridge with one use left spends it before the tape threads. -/
theorem test_use_is_spent :
    let s := ((withJob (inState .present) .load .counters).onCml fun c =>
      { c with counters := some { loads := 7, uses := 1 }, op := some (linkOp .counters [.write 1] 0 none []) })
    (after (exec (.i2cTransactionDone .ack) s)).cml.counters = some { loads := 8, uses := 0 } := by decide

/-- Threading, at an attempt. -/
def threading (attempt : Nat) : State :=
  withJob (State.reset.onMc fun m => { m with state := .threading, thread := some { attempt := attempt, kind := .data, timer := 3200000 } })
    .load .threading
theorem witness_ThreadingEnds :
    ∀ n ∈ [1, 2], (threading n).mc.state = .threading ∧ (threading n).mc.thread = some { attempt := n, kind := .data, timer := 3200000 }
      ∧ (threading n).mc.job = some (Job.new 0 .load .threading) := by decide

/-- A cleaning cartridge threading, with its LOAD and after a controller reset without it. -/
def threadingCleaning : State :=
  (threading 1).onMc fun m => { m with thread := some { attempt := 1, kind := .cleaning, timer := 3200000 } }
theorem witness_ThreadingEnds_cleaning :
    threadingCleaning.mc.state = .threading ∧ (threadingCleaning.mc.thread.map (·.kind)) = some .cleaning
    ∧ threadingCleaning.mc.job.isSome = true ∧ (threadingCleaning.onMc fun m => { m with job := none }).mc.job = none := by decide

/-- A tape moving with its tension loop on. -/
def tensioned (up : Bool) (run faults : Nat) : State :=
  State.reset.onMc fun m => { m with state := .moving, loopOn := true, tensionUp := up, tensionUpRun := run, tensionFaults := faults }
/-- A tape judged by its marks. -/
def judged (faults : Nat) : State := State.reset.onMc fun m => { m with state := .moving, offRun := 16, speedFaults := faults }
/-- The read state at a place, with nothing yet accepted. -/
def readState (p : TapePos) : ReadState :=
  { point := some p, reception := none, asked := false, n := 0, floor := none, window := none, retries := 0, inRetry := false
    retryDue := false, blanks := 0, eod := none, markerAsked := false, firstBad := none }
theorem witness_TensionAndSpeedFaults :
    (tensioned false 16 0).mc.loopOn = true ∧ (tensioned false 16 0).mc.tensionUp = false ∧ 16 ≤ (tensioned false 16 0).mc.tensionUpRun
    ∧ (tensioned false 16 0).mc.job = none
    ∧ (withJob (tensioned false 16 0) .load .threading).mc.job = some (Job.new 0 .load .threading)
    ∧ (Job.new 0 .load .threading).stage ≠ .recoverTension
    ∧ (withJob (tensioned false 16 0) .unload .recoverTension).mc.job = some (Job.new 0 .unload .recoverTension)
    ∧ (tensioned false 16 0).mc.state ≠ .unthreading ∧ (inState .unthreading).mc.state = .unthreading
    ∧ (tensioned true 16 40).mc.tensionUp = true ∧ 40 ≤ (tensioned true 16 40).mc.tensionFaults
    ∧ (tensioned true 16 40).mc.loopOn = true ∧ (tensioned true 16 40).mc.job = none
    ∧ (withJob (tensioned true 16 40) .unload .recoverWind).mc.job = some (Job.new 0 .unload .recoverWind)
    ∧ (withJob (tensioned true 16 40) .unload .recoverTension).mc.job = some (Job.new 0 .unload .recoverTension)
    ∧ (judged 1).mc.judging = true ∧ 16 ≤ (judged 1).mc.offRun ∧ (judged 1).mc.speedFaults ≠ 0
    ∧ (judged 0).mc.speedFaults = 0 ∧ (judged 0).mc.state ≠ .streaming
    ∧ (let r := readState { pass := 0, mark := 12 };
      let s := ((judged 0).onMc fun m => { m with state := .streaming }).onTte fun t => { t with read := some r };
      s.mc.judging = true ∧ 16 ≤ s.mc.offRun ∧ s.mc.speedFaults = 0 ∧ s.mc.state = .streaming ∧ s.tte.read = some r
      ∧ r.reception = none ∧ r.asked = false) := by decide

theorem witness_UnthreadingEnds :
    (withJob (inState .unthreading) .unload .unthreading).mc.state = .unthreading
    ∧ (Job.new 0 .unload .unthreading).kind ≠ .load ∧ (Job.new 0 .load .unthreading).kind = .load
    ∧ (Job.new 0 .unload .recoverWind).stage = .recoverWind ∧ (Job.new 0 .unload .recoverTension).stage = .recoverTension
    ∧ (State.reset.onMc fun m => { m with recovery := some 3200000 }).mc.recovery = some 3200000 := by decide

/-- A tape moving forward at a mark. -/
def movingAt (mark : Nat) : State :=
  State.reset.onMc fun m => { m with state := .moving, travel := .forward, pos := some { pass := 0, mark := mark } }
/-- A tape being unthreaded, its place still known, and a stranded tape wound toward the leader. -/
def unthreadingAt (k : Nat) : State := (movingAt k).beginUnthread
def winding : State := State.reset.onMc fun m => { m with state := .stranded, travel := .reverse }
theorem witness_MarksAreCounted :
    (movingAt 60000).mc.state.running = true ∧ (movingAt 60000).mc.travel ≠ .stopped
    ∧ (movingAt 60000).mc.pos = some { pass := 0, mark := 60000 } ∧ (movingAt 0).mc.runIn = false
    ∧ ((movingAt 5).onMc fun m => m.reposition 0).mc.state.running = true
    ∧ ((movingAt 5).onMc fun m => m.reposition 0).mc.travel ≠ .stopped
    ∧ ((movingAt 5).onMc fun m => m.reposition 0).mc.decel = some 0
    ∧ (unthreadingAt 5).mc.state.running = true ∧ (unthreadingAt 5).mc.travel = .stopped
    ∧ (unthreadingAt 5).mc.state = .unthreading ∧ (unthreadingAt 5).mc.runIn = false
    ∧ winding.mc.state.running = true ∧ winding.mc.travel ≠ .stopped ∧ winding.mc.pos = none ∧ winding.mc.runIn = false
    ∧ (State.reset.onHm fun h => { h with wear := 65535, waiting := 1 }).hm.waiting = 0 + 1
    ∧ (State.reset.onTte fun t => { t with runOn := some 0 }).tte.runOn = some 0 ∧ State.reset.tte.verify = none := by decide
/-- R121, R162: a mark in UNTHREADING, and one in the wind of a slow recovery, is reported; in READY none passes. -/
theorem test_marks_are_reported_in_every_threaded_state :
    (∀ s ∈ [unthreadingAt 5, winding], (after (exec (.markEvent 0) s)).hm.wear = 1)
    ∧ (after (exec (.markEvent 0) (unthreadingAt 5))).mc.pos = some { pass := 0, mark := 5 }
    ∧ (after (exec (.markEvent 0) readyTape)).hm.wear = 0 := by decide
/-- R162: the mark after 65,535 makes the accumulator 0 and raises the index by 1. -/
theorem test_wear_wraps :
    let s := movingAt 0 |>.onHm fun h => { h with wear := 65535 }
    let t := after (exec .wearStep (after (exec (.markEvent 0) s)))
    t.hm.wear = 0 ∧ t.hm.ci = 1 := by decide
/-- R1: the count is clamped at mark 60,000. -/
theorem test_count_clamped : (after (exec (.markEvent 0) (movingAt 60000))).mc.pos = some { pass := 0, mark := 60000 } := by decide

/-- A slot in a state, of a stripe. -/
def slotOf (g : SlotState) (stripe : Nat) : Slot :=
  { state := g, stripe := some stripe, dataBytes := 100, entries := 1, firstRecord := some stripe, copy := some 0
    pos := some { pass := 0, mark := 6 * stripe } }
/-- Eight slots, the first ones given. -/
def slots (l : List Slot) : List Slot := l ++ List.replicate (8 - l.length) Slot.empty
/-- A write session with its write point at a place. -/
def writing (g : MotionState) (p : TapePos) (l : List Slot) : State :=
  { readyTape with
    mc := { readyTape.mc with state := g }
    spm := { readyTape.spm with direction := .writeOpen, slots := slots l }
    tte := { readyTape.tte with writePoint := some p }
    cml := { readyTape.cml with directory := some (directoryTo 0) } }
/-- A read session with its read state. -/
def readingTape (g : MotionState) (r : ReadState) (l : List Slot) : State :=
  { readyTape with
    mc := { readyTape.mc with state := g }
    spm := { readyTape.spm with direction := .readOpen, slots := slots l }
    tte := { readyTape.tte with read := some r } }

/-- A session with one stripe in slot 0, of this state and copy number. -/
def judging (d : Direction) (clearing : Bool) (g : SlotState) (copy : Nat) : State :=
  (writing .streaming { pass := 0, mark := 6 } [{ slotOf g 0 with copy := some copy }]).onSpm fun m =>
    { m with direction := d, clearing := clearing }

/-- A session streaming towards its write point. -/
def streamingTo (p : TapePos) (l : List Slot) : State :=
  (writing .streaming p l).onMc fun m => { m with travel := passTravel p.pass, pos := some { pass := p.pass, mark := 12 } }
/-- A reception at mark 0. -/
def reception (started : Bool) : Reception :=
  { slot := 0, pos := { pass := 0, mark := 0 }, overrun := false, started := started, stored := 0 }

theorem witness_MarksAreCounted_runOn :
    let s := (streamingTo { pass := 0, mark := 12 } []).onTte fun t => { t with runOn := some 0, underrun := true }
    s.tte.runOn = some 0 ∧ s.tte.verify = none ∧ s.mc.state = .streaming ∧ s.tte.underrun = true ∧ s.arming = true
    ∧ s.rg.flushed = false := by decide
/-- A report is still due as the run-on over the last position ends (R72). -/
def runOnEnding (copy : Nat) : State :=
  (judging .writeOpen false .awaitVerify copy).onTte fun t =>
    { t with runOn := some 0, underrun := true, verify := some { slot := 0, mark := 0, runOn := true } }
theorem witness_MarksAreCounted_deadline :
    ∀ k ∈ [0, 3], (runOnEnding k).tte.runOn = some 0
      ∧ (runOnEnding k).tte.verify = some { slot := 0, mark := 0, runOn := true } ∧ (runOnEnding k).mc.state = .streaming
      ∧ ((runOnEnding k).judgeFailed 0 none).arming = (k == 0) := by decide +kernel
/-- R69, R72, R74: the report missing at the end of the run-on sends the stripe back to be rewritten; with copy number 3 the
session fails and the tape stops. -/
theorem test_missing_report_at_run_on_end :
    (let t := after (exec .runOnEnd (runOnEnding 0));
      (t.slotAt 0).state = .sealed ∧ (t.slotAt 0).copy = some 1 ∧ t.mc.state = .repositioning ∧ t.rg.stopKind = .underrun)
    ∧ (let t := after (exec .runOnEnd (runOnEnding 3));
      t.spm.direction = .writeFailed ∧ t.mc.slowing = true ∧ t.tte.runOn = none) := by decide +kernel
/-- The start mark is matched with a stripe armed, and with a reception waiting. -/
theorem witness_MarksAreCounted_starts :
    (let f : InFlight := { slot := 0, transfer := false, fetched := 0, sent := 0 };
      let s := ((streamingTo { pass := 0, mark := 12 } [slotOf .writing 0]).onTte fun t => { t with inFlight := some f }).onMc
        fun m => m.load 12 .startMark;
      s.mc.state = .streaming ∧ s.mc.matched .startMark = true ∧ s.mc.matched .passEnd = false
      ∧ s.mc.matched .locateStop = false ∧ s.tte.read = none ∧ s.tte.inFlight = some f ∧ f.transfer = false
      ∧ s.tte.writePoint = some { pass := 0, mark := 12 })
    ∧ (let r := { readState { pass := 0, mark := 0 } with reception := some (reception false) };
      let s := (readingTape .streaming r [{ Slot.empty with state := .reading }]).onMc fun m =>
        { m.load 0 .startMark with travel := .forward };
      s.mc.state = .streaming ∧ s.mc.matched .startMark = true ∧ s.mc.matched .passEnd = false
      ∧ s.mc.matched .locateStop = false ∧ s.tte.read = some r ∧ r.reception = some (reception false)
      ∧ (reception false).started = false) := by decide

/-- A start mark that finds every slot taken, with the window CLOSED, OPEN, and in a retry at its first position. -/
theorem witness_MarksAreCounted_blocked :
    let origin : TapePos := { pass := 0, mark := 12 }
    let r := readState { pass := 0, mark := 0 }
    let open_ : ReadState := { r with window := some { origin := origin, count := 0, counting := true } }
    ∀ q ∈ [r, open_, { open_ with inRetry := true }],
      let s := (readingTape .streaming q (List.replicate 8 (slotOf .readDone 1))).onMc fun m =>
        { m.load 0 .startMark with travel := .forward }
      s.mc.state = .streaming ∧ s.mc.matched .startMark = true ∧ s.mc.matched .passEnd = false
      ∧ s.mc.matched .locateStop = false ∧ s.tte.read = some q ∧ q.reception = none ∧ q.point = some { pass := 0, mark := 0 }
      ∧ q.going = true ∧ s.lowestFree = none
      ∧ (s.onTte fun t => { t with loopback := some { cmd := 0, slot := 0, fetched := 0, sent := 0 } }).tte.loopback ≠ none := by
  decide
theorem witness_StartsAndRepositions :
    (let s := writing .ready { pass := 0, mark := 0 } [slotOf .sealed 0, slotOf .sealed 1];
      s.arming = true ∧ s.standsReady = true ∧ s.startCondition s.emptyingWaits = true)
    ∧ (let s := readingTape .ready (readState { pass := 0, mark := 0 }) [];
      (readState { pass := 0, mark := 0 }).going = true ∧ s.standsReady = true ∧ s.mc.job = none ∧ s.readStartHolds = true)
    ∧ (let r := { readState { pass := 0, mark := 12 } with inRetry := true, retries := 1 };
      let s := (readingTape .ready r (List.replicate 7 (slotOf .readDone 1))).onRg fun g => { g with readStart := .atOnce };
      r.going = true ∧ s.standsReady = true ∧ s.mc.job = none ∧ s.readStartHolds = true ∧ s.rg.newRun = false)
    ∧ (inState .repositioning).mc.state = .repositioning := by decide

/-- R113: a run of 31 after an underrun lowers the level, one of 32 does not. -/
theorem test_short_run :
    ({ State.reset.rg with level := 2, runLength := some 31, stopKind := .underrun } : Rg).startRun.level = 1
    ∧ ({ State.reset.rg with level := 2, runLength := some 32, stopKind := .underrun } : Rg).startRun.level = 2 := by decide

/-- A turnaround at the end of pass 0. -/
def turning (s : State) : State := s.onMc fun m => { m with state := .turnaround, pos := some { pass := 0, mark := 60000 } }
theorem witness_TurnsAndStops :
    (let s := turning (writing .streaming { pass := 1, mark := 60000 } []);
      s.mc.state = .turnaround ∧ s.tte.runOn = none ∧ s.mc.job = none ∧ s.tte.read = none
      ∧ s.mc.pos = some { pass := 0, mark := 60000 } ∧ s.tte.writePoint = some { pass := 1, mark := 60000 } ∧ s.arming = true
      ∧ s.mc.thermal = .normal)
    ∧ (let s := turning (judging .writeFailed false .sealed 0);
      s.mc.state = .turnaround ∧ s.tte.runOn = none ∧ s.mc.job = none ∧ s.tte.read = none ∧ s.arming = false)
    ∧ (let r := readState { pass := 1, mark := 60000 };
      let s := turning (readingTape .streaming r []);
      s.mc.state = .turnaround ∧ s.tte.runOn = none ∧ s.mc.job = none ∧ s.tte.read = some r ∧ r.going = true
      ∧ r.point = some { pass := 1, mark := 60000 } ∧ s.mc.thermal = .normal)
    ∧ (let s := turning (withJob readyTape .locate .searching);
      s.mc.state = .turnaround ∧ s.tte.runOn = none ∧ s.mc.pos = some { pass := 0, mark := 60000 }
      ∧ s.mc.job = some (Job.new 0 .locate .searching) ∧ (Job.new 0 .locate .searching).stage = .searching) := by decide
theorem witness_TurnsAndStops_stops :
    (let s := (inState .streaming).onMc fun m => { m with slowing := true };
      s.mc.slowing = true ∧ s.mc.state = .streaming)
    ∧ (let s := (inState .repositioning).onMc fun m => { m with slowing := true };
      s.mc.slowing = true ∧ s.mc.state = .repositioning)
    ∧ (let f : Finish := { result := .ok, detailA := noDetail, detailB := noDetail, pos := some atStart };
      let j := { Job.new 0 .rewind .finishing with finish := some f };
      let s := readyTape.onMc fun m => { m with state := .moving, slowing := true, job := some j };
      s.mc.slowing = true ∧ s.mc.state ≠ .streaming ∧ s.mc.state ≠ .repositioning ∧ s.mc.resume = false ∧ s.mc.job = some j ∧ j.stage = .finishing
      ∧ j.finish = some f ∧ s.spm.direction ≠ .readOpen) := by decide

/-- The default list A, at its second entry and at its last. -/
def sequenceAt (k : Nat) : Sequence := { onB := false, entries := [2, 3, 4, 5, 6, 7, 8], next := k, stamp := 0 }
theorem witness_SequencesAndConversions :
    (sequenceAt 1).entries.getD (sequenceAt 1).next 0 ≠ 8 ∧ (sequenceAt 5).entries.getD (sequenceAt 5).next 0 ≠ 8
    ∧ (State.reset.onSs fun x => { x with sequence := some (sequenceAt 5) }).ss.sequence = some (sequenceAt 5) := by decide
/-- The head temperature is at entry 6 of the default list A: normal, paused, and with a tape read ahead. -/
theorem witness_SequencesAndConversions_thermal :
    (sequenceAt 6).entries.getD (sequenceAt 6).next 0 = 8 ∧ tensionPair (sequenceAt 6) = false
    ∧ State.reset.mc.thermal = .normal ∧ State.reset.tte.inFlight = none ∧ State.reset.spm.direction ≠ .readOpen
    ∧ 2880 < (2881#12).toNat ∧ (2880#12).toNat ≤ 2880 ∧ (2719#12).toNat < 2720 ∧ 2720 ≤ (2720#12).toNat
    ∧ (State.reset.onMc fun m => { m with thermal := .paused }).mc.thermal = .paused
    ∧ (let r := readState { pass := 0, mark := 12 };
      let s := (readingTape .streaming r []).onSs fun x => { x with sequence := some (sequenceAt 6) };
      s.ss.sequence = some (sequenceAt 6) ∧ s.mc.thermal = .normal ∧ s.tte.inFlight = none ∧ s.spm.direction = .readOpen
      ∧ s.mc.state = .streaming ∧ s.mc.slowing = false ∧ s.tte.read = some r ∧ r.reception = none ∧ r.asked = false) := by
  decide
/-- A reading tape that waits in READY, paused, at the head temperature's entry of the sequence. -/
theorem witness_SequencesAndConversions_resume :
    let r := readState { pass := 0, mark := 12 }
    let s := ((readingTape .ready r []).onSs fun x => { x with sequence := some (sequenceAt 6) }).onMc fun m =>
      { m with thermal := .paused }
    s.ss.sequence = some (sequenceAt 6) ∧ s.mc.thermal = .paused ∧ s.spm.direction = .readOpen ∧ s.tte.read = some r
    ∧ s.rg.readStart = .threshold ∧ s.mc.state = .ready ∧ r.eod = none ∧ (2719#12).toNat < 2720 := by
  decide

/-- A half of five results of seven, its other half awaiting its ring write, with a SENSOR ring of 128 slots. -/
def halfFull (results tail : Nat) : State :=
  (mapped [region .sensor 0x10000 1]).onSs fun x =>
    { x with tail := tail, half1 := { phase := .awaitCopy, results := [] }
             half0 := { phase := .filling
                        results := List.replicate results { input := 2, raw := 4095, onB := false, entry := 0, stamp := 0 } } }
theorem witness_SequencesAndConversions_halves :
    (halfFull 6 0).ss.plan.batch = 8 ∧ ((halfFull 6 0).ss.half 0).results.length + 1 < 8 ∧ 8 ≤ ((halfFull 7 0).ss.half 0).results.length + 1
    ∧ (halfFull 7 0).sensorFull = false ∧ (halfFull 7 127).sensorFull = true ∧ (halfFull 7 0).ringSlots .sensor 32 ≠ 0
    ∧ (halfFull 7 0).ss.half0.phase = .filling ∧ ((halfFull 7 0).ss.half 1).phase = .awaitCopy := by decide
/-- R153: a record of two results, the second of a signed input, at the bounds of its fields. -/
theorem witness_SequencesAndConversions_record :
    let rs : List SensorResult := [{ input := 11, raw := 4095, onB := true, entry := 7, stamp := 4294967295 },
      { input := 7, raw := 0, onB := true, entry := 6, stamp := 4294967295 }]
    rs.length ≤ 8 ∧ 1 ≤ 1 ∧ 255 ≤ 255 ∧ 4294967295 < 4294967296 ∧ 7 ≤ 7 ∧ 11 ≤ 11 ∧ 4095 ≤ 4095
    ∧ (sensorRecord { Plan.default_ with signed := [7] } 1 255 rs).take 16
      = [255, 255, 255, 255, 1, 2, 135, 255, 0x7B, 0, 0, 0, 0xF0, 0xFF, 0, 0x80] := by decide

theorem witness_TorqueMovesTowardsTarget :
    4095 ≤ 4095 ∧ 2045 + 3 ≤ 2048 ∧ 4094 < 4095 ∧ 2048 + 3 ≤ 2051 ∧ 0 < 1 ∧ nextTorque 4094 2045 = 4095 ∧ nextTorque 1 2051 = 0 := by
  decide

/-- A pool of eight slots, its tape in READY, with a valid directory at end of data 0. -/
def pooled (recorded : Recorded) : State :=
  { readyTape with
    spm := { readyTape.spm with slots := slots [] }
    cml := { readyTape.cml with condition := .valid, recorded := recorded, directory := some (directoryTo 0) } }
theorem witness_SessionsOpen :
    State.reset.openWriteCheck.isSome = true ∧ (pooled .valid).openWriteCheck = none ∧ (pooled .valid).cml.recorded ≠ .notValid
    ∧ (pooled .valid).cml.op = none ∧ (pooled .notValid).openWriteCheck = none ∧ (pooled .notValid).cml.recorded = .notValid
    ∧ (pooled .notValid).mc.dsPos = some atStart ∧ (pooled .notValid).cml.directory = some (directoryTo 0)
    ∧ State.reset.openReadCheck.isSome = true ∧ (pooled .valid).openReadCheck = none
    ∧ (pooled .valid).ci.dataQueue = [] ∧ (pooled .valid).pe.intake = [] := by decide
theorem witness_SessionsOpen_takes : (pooled .valid).Takes 1 := by
  unfold State.Takes Ci.Numbered
  decide

theorem witness_RecordsTakenAndDelivered :
    (let s := writing .ready { pass := 0, mark := 0 } [];
      State.reset.writeRefusal.isSome = true ∧ s.spm.direction = .writeOpen ∧ s.intakeHeld = false ∧ s.pe.next = none)
    ∧ (∃ l ∈ [16777216], 16777215 < l) ∧ (∀ l ∈ [16777215], l ≤ 16777215)
    ∧ (let s := readingTape .ready (readState { pass := 0, mark := 0 }) [];
      s.pe.intake = [] ∧ s.spm.direction = .readOpen ∧ s.mc.job = none) := by decide

theorem witness_FlushCloseAbort :
    (let s := writing .ready { pass := 0, mark := 0 } [];
      s.spm.direction = .writeOpen ∧ s.spm.clearing = false ∧ s.filling = none ∧ s.spm.writeEmpty = true)
    ∧ State.reset.spm.direction = .none ∧ State.reset.mc.job = none ∧ State.reset.mc.state ≠ .repositioning ∧ State.reset.cml.op = none ∧ State.reset.ci.dataQueue = []
    ∧ State.reset.ci.motionQueue = [] ∧ State.reset.ci.aborts = [] ∧ State.reset.ue.state = .idle := by decide
/-- A FILLING stripe to seal, a session to clear with a SEALED stripe or none left, and a read session to leave. -/
theorem witness_FlushCloseAbort_sessions :
    (let s := writing .ready { pass := 0, mark := 0 } [slotOf .filling 0, slotOf .sealed 1];
      s.spm.direction = .writeOpen ∧ s.filling = some 0 ∧ s.pe.entryOpen = false ∧ (s.slotAt 0).entries ≠ 0 ∧ s.mc.job = none
      ∧ s.cml.op = none ∧ s.tte.inFlight = none ∧ s.mc.state ≠ .repositioning ∧ s.pe.intake = [] ∧ s.ci.dataQueue = []
      ∧ s.ci.motionQueue = [] ∧ (∀ x ∈ s.spm.slots, x.state ≠ .verified))
    ∧ (let s := (writing .ready { pass := 0, mark := 0 } []).onSpm fun m => { m with clearing := true };
      s.spm.clearing = true ∧ s.spm.direction ≠ .readOpen ∧ s.spm.writeEmpty = true ∧ s.tte.inFlight = none ∧ s.tte.verify = none)
    ∧ (let s := readingTape .ready (readState { pass := 0, mark := 0 }) [slotOf .readDone 0];
      s.spm.direction = .readOpen ∧ s.mc.job = none ∧ s.cml.op = none ∧ s.mc.state = .ready ∧ s.spm.clearing = false
      ∧ s.ci.aborts = [] ∧ s.ue.cmd = none ∧ s.ue.state = .idle) := by decide
/-- R17, R19: the invariant holds in a read session with a stripe read. -/
theorem witness_FlushCloseAbort_reading :
    let s := readingTape .ready (readState { pass := 0, mark := 0 }) [slotOf .readDone 0, slotOf .delivering 1]
    s.Inv ∧ s.spm.direction = .readOpen := by
  unfold State.Inv State.MemoryOk Ci.Numbered State.LevelOk Spm.Fits
  decide
/-- R35: an ABORT frees a SEALED stripe at once, and the session ends with the direction NONE in the same step. -/
theorem test_abort_clears_the_session :
    let t := after (exec (.abort 0 0) (writing .ready { pass := 0, mark := 0 } [slotOf .sealed 0]))
    t.spm.direction = .none ∧ t.spm.slots.all (·.state == .free) = true ∧ t.cw.pending.map (·.value) = [Result.ok.code] := by decide

/-- A FLUSH at this stage that holds the head while a stripe awaits verify, and a second one behind it. -/
def flushing (g : Stage) : State :=
  (((writing .streaming { pass := 0, mark := 12 } [slotOf .awaitVerify 0, slotOf .sealed 1]).onTte fun t =>
      { t with verify := some { slot := 0, mark := 0, runOn := false } }).onCi fun c =>
    { c with outstanding := waitingCommands 2 |>.map fun f => { f with stage := if f.id = 0 then g else .waiting }
             dataQueue := [0, 1], nextId := 2 })
/-- A FLUSH that holds the head, alone, when an ABORT comes, and one aborted there. -/
theorem witness_FlushCloseAbort_holding :
    (let s := (flushing .running).onCi fun c => { c with outstanding := waitingCommands 1, dataQueue := [0] };
      let f : Taken :=
        { id := 0, tag := 0, flags := 0, malformed := false, cmd := .flush, queue := .data, stage := .running };
      s.Takes 0 ∧ s.pe.intake = [] ∧ s.spm.direction = .writeOpen ∧ s.mc.job = none ∧ s.cml.op = none ∧ s.tte.inFlight = none
      ∧ s.mc.state ≠ .repositioning ∧ s.ci.dataQueue = [f.id] ∧ s.taken f.id = some f ∧ f.cmd = .flush ∧ f.stage = .running
      ∧ s.ci.motionQueue = [] ∧ (∀ x ∈ s.spm.slots, x.state ≠ .verified) ∧ ∃ x ∈ s.spm.slots, x.state = .awaitVerify)
    ∧ (let s := flushing .aborted;
      let f : Taken :=
        { id := 0, tag := 0, flags := 0, malformed := false, cmd := .flush, queue := .data, stage := .aborted };
      s.pe.intake = [] ∧ s.ci.dataQueue.head? = some f.id ∧ s.taken f.id = some f ∧ f.cmd = .flush ∧ f.stage = .aborted
      ∧ f.barrier = false ∧ f.malformed = false ∧ s.spm.writeEmpty = false
      ∧ (s.onSpm fun m => { m with slots := [] }).spm.writeEmpty = true) := by
  unfold State.Takes Ci.Numbered
  decide
/-- R78, R186: under an ABORT the FLUSH at the head waits for the stripe in verify and carries the end of data that its freeing
left, stripe 1; the one behind it completes at the dispatch. -/
theorem test_abort_keeps_the_flush_to_its_end :
    let u := after (exec (.abort 9 0) (flushing .running))
    let t := after (exec (.verifyReport 0 { valid := true, bytes := stampHeader (Header.sealed 0 1 1 0 100) { pass := 0, mark := 0 } 0 }
      { rows := 0, maxCorrected := 0 }) u)
    u.ci.dataQueue = [0] ∧ u.cw.pending.map (fun i => (i.cmd, i.value)) = [(some 1, Result.aborted.code)]
    ∧ t.cw.pending.map (fun i => (i.cmd, i.value))
        = [(some 1, Result.aborted.code), (some 0, Result.aborted.code), (some 2, Result.ok.code)]
    ∧ (t.cw.pending.map (·.detailA.take 4))[1]? = some (dv 4 1) ∧ t.spm.direction = .none := by decide +kernel

/-- R34, R170: the slot that a LOOPBACK sends stays FREE; the request gets the lowest-indexed other one. -/
theorem test_loopback_keeps_its_slot :
    let s := (writing .ready { pass := 0, mark := 0 } []).onTte fun t =>
      { t with loopback := some { cmd := 0, slot := 0, fetched := 0, sent := 0 } }
    s.lowestFree = some 1
    ∧ ((after (exec .fillingSlotTaken (s.onPe fun p => { p with coder := .awaitSlot }))).spm.slots.take 2).map (·.state)
        = [.free, .filling] := by decide
/-- A Pack Engine collecting a record of 300 bytes, with bytes in its FIFO. -/
def collecting (raw k : Nat) : Pe :=
  { (State.reset.pe.takeStream 0 [raw] false).beginItem with fifo := List.replicate k 65 }
/-- A seal that found the last piece's entry still to be written, with these writes left. -/
def sealingEntry (writes : List (Nat × List Byte)) : State :=
  ((writing .ready { pass := 0, mark := 0 } [slotOf .filling 0]).onPe fun p => { p with coder := .emitting, emit := .entry }).onSpm
    fun m => { m with sealing := some { slot := 0, writes := writes } }
theorem witness_CodingAndFilling :
    (let p := collecting 300 256;
      p.coder = .collecting ∧ 256 ≤ p.fifo.length ∧ 256 < p.chunkRoom)
    ∧ (let p := collecting 20 20;
      p.coder = .collecting ∧ p.chunkRoom ≤ 20 ∧ p.chunkRoom ≤ p.fifo.length ∧ 0 < p.chunkRoom)
    ∧ (let s := (writing .ready { pass := 0, mark := 0 } []).onPe fun p => { p with coder := .awaitSlot };
      s.spm.direction = .writeOpen ∧ s.spm.clearing = false ∧ s.spm.sealing = none ∧ s.spm.firstIn .filling = none
      ∧ s.lowestFree = some 0)
    ∧ (let s := (writing .ready { pass := 0, mark := 0 } [slotOf .filling 0]).onSpm fun m => { m with sealTimer := some 400000 };
      s.spm.sealTimer = some 400000 ∧ s.filling = some 0 ∧ s.pe.entryOpen = false ∧ (s.slotAt 0).entries ≠ 0)
    ∧ (let s := writing .ready { pass := 0, mark := 0 } [{ slotOf .filling 0 with entries := 0 }];
      s.filling = some 0 ∧ (s.slotAt 0).entries = 0)
    ∧ (let s := sealingEntry [(0, []), (0, [])];
      s.pe.coder = .emitting ∧ s.pe.entryOpen = false ∧ s.pe.emit = .entry ∧ s.spm.entryWaits = true
      ∧ (sealingEntry [(0, [])]).spm.entryWaits = false
      ∧ s.spm.sealing.isSome = true ∧ (s.onSpm fun m => { m with sealTimer := some 0 }).spm.sealTimer = some 0) := by decide +kernel
/-- R24: the seal timer runs on during the sealing writes and stops as the slot becomes SEALED. -/
theorem test_timer_stops_with_the_sealing :
    let s := (writing .ready { pass := 0, mark := 0 } [slotOf .filling 0]).onSpm fun m => { m with sealTimer := some 9 }
    s.triggerSeal.spm.sealTimer = some 9 ∧ (after (exec (.dramPortGrant .quiet) s.triggerSeal)).spm.sealTimer = none := by
  decide +kernel
/-- R42: two commands wait and a held write of 8 bytes is examined after the first is taken, whose 4 bytes it is longer than. -/
theorem test_held_write_is_examined_at_every_change :
    let cmd (k : Nat) : Taken :=
      { id := k, tag := 0, flags := 0, malformed := false, cmd := .streamRecord 1 [4], queue := .data, stage := .waiting }
    let s : State := { apertures with
      spm := { apertures.spm with direction := .writeOpen, slots := slots [] }
      ci := { apertures.ci with outstanding := [cmd 0, cmd 1], dataQueue := [0, 1], nextId := 2 }
      bpu := { apertures.bpu with held := [heldAccess .link none] } }
    s.finish.bpu.linkAnswer.map (·.okay) = some false ∧ s.finish.ci.dataQueue = [] := by decide +kernel

theorem witness_ShortRecordsSurviveCoding : 1 ≤ [(65 : Byte)].length ∧ (List.replicate 256 (65 : Byte)).length ≤ 256 := by
  simp only [List.length_replicate, List.length_singleton]; decide

theorem witness_HeadersAndEntriesReadBack :
    65535 < 65536 ∧ 16777215 < 16777216 ∧ 1 ≤ 65535 ∧ 4096 ≤ 4096 ∧ 64 + 982976 + 16 * 4096 ≤ 1048576 ∧ 3 ≤ 3 := by decide

/-- A stripe in flight. -/
def inFlight (sent : Nat) : InFlight := { slot := 0, transfer := true, fetched := sent, sent := sent }
theorem witness_StripesAreWrittenAndVerified :
    (let s := streamingTo { pass := 0, mark := 59994 } [slotOf .sealed 0];
      s.mayArm = true ∧ ({ pass := 0, mark := 59994 } : TapePos).startable = true ∧ s.spm.head = some 0
      ∧ s.mc.ahead { pass := 0, mark := 59994 } = true ∧ s.spm.firstIn .writing = none)
    ∧ (let s := streamingTo { pass := 62, mark := 59995 } [];
      s.mayArm = true ∧ ({ pass := 62, mark := 59995 } : TapePos).startable = false ∧ 62 < 63 ∧ s.tte.verify = none)
    ∧ (let s := streamingTo { pass := 63, mark := 5 } [slotOf .sealed 0];
      s.mayArm = true ∧ ({ pass := 63, mark := 5 } : TapePos).startable = false ∧ 63 ≤ 63 ∧ s.spm.head.isSome = true)
    ∧ ((inFlight 1048576).transfer = true ∧ 1048576 ≤ (inFlight 1048576).sent ∧ (inFlight 1048575).sent < 1048576
      ∧ State.reset.tte.fifo = [] ∧ State.reset.spm.clearing = false)
    ∧ (let s := (writing .streaming { pass := 0, mark := 6 } [slotOf .writing 0]).onTte fun t => { t with inFlight := some (inFlight 1048576) };
      s.tte.inFlight = some (inFlight 1048576) ∧ (s.slotAt 0).state = .writing ∧ s.spm.firstIn .awaitVerify = none
      ∧ s.tte.verify = none)
    ∧ (let s := (writing .streaming { pass := 0, mark := 6 } [slotOf .awaitVerify 0]).onTte fun t =>
        { t with verify := some { slot := 0, mark := 0, runOn := false } };
      s.tte.verify.isSome = true ∧ (s.slotAt 0).pos = some { pass := 0, mark := 0 }) := by decide
/-- Stripe 0 still awaits its report as the transfer of stripe 1 ends (R72). -/
def reportDue (sent : Nat) (clearing : Bool) : State :=
  ((writing .streaming { pass := 0, mark := 12 } [slotOf .awaitVerify 0, slotOf .writing 1]).onTte fun t =>
    { t with inFlight := some { inFlight sent with slot := 1 }, verify := some { slot := 0, mark := 0, runOn := false } }).onSpm
      fun m => { m with clearing := clearing }
theorem witness_StripesAreWrittenAndVerified_deadline :
    (∀ s ∈ [reportDue 1048576 false, reportDue 1048575 false, reportDue 1048575 true],
      s.tte.verify = some { slot := 0, mark := 0, runOn := false } ∧ s.tte.fifo = []
      ∧ ((s.judgeFailed 0 none).slotAt 1).state = .writing ∧ (s.judgeFailed 0 none).spm.firstIn .awaitVerify = none)
    ∧ (reportDue 1048576 false).tte.inFlight = some { inFlight 1048576 with slot := 1 }
    ∧ (reportDue 1048575 true).tte.inFlight = some { inFlight 1048575 with slot := 1 }
    ∧ ({ inFlight 1048576 with slot := 1 } : InFlight).transfer = true := by decide +kernel
/-- R72: the report counts as missing before the termination: stripe 0 is SEALED again with copy number 1, scored 8, and stripe 1
awaits its own report, or is SEALED after starvation with its copy number unchanged. -/
theorem test_missing_report_at_termination :
    (let t := after (exec .transferCountTermination (reportDue 1048576 false));
      (t.slotAt 0).state = .sealed ∧ (t.slotAt 0).copy = some 1 ∧ t.hm.ci = 8 ∧ (t.slotAt 1).state = .awaitVerify
      ∧ t.tte.verify = some { slot := 1, mark := 6, runOn := false })
    ∧ (let t := after (exec .channelStarvation (reportDue 1048575 false));
      (t.slotAt 0).state = .sealed ∧ (t.slotAt 0).copy = some 1 ∧ (t.slotAt 1).state = .sealed ∧ (t.slotAt 1).copy = some 0
      ∧ t.tte.verify = none ∧ t.tte.inFlight = none) := by decide +kernel

theorem witness_StripesAreJudged :
    (∀ c ∈ [2, 3], (judging .writeOpen false .awaitVerify c).spm.slots[0]? = some { slotOf .awaitVerify 0 with copy := some c })
    ∧ 2 < 3 ∧ 3 ≤ 3 ∧ (judging .writeOpen false .awaitVerify 3).spm.clearing = false
    ∧ ((judging .writeOpen false .awaitVerify 0).slotAt 0).state = .awaitVerify
    ∧ (judging .writeOpen false .awaitVerify 3).spm.direction = .writeOpen
    ∧ (judging .writeOpen true .awaitVerify 3).spm.clearing = true
    ∧ (judging .writeFailed false .awaitVerify 3).spm.direction ≠ .writeOpen := by decide
/-- One verified stripe at the bottom, and nothing left of the write side once it is freed. -/
theorem witness_StripesAreJudged_freed :
    let s := judging .writeOpen false .verified 0
    lowestOf (s.spm.numbered fun y => y.state.writeSide) = some (0, 0) ∧ (s.slotAt 0).state = .verified
    ∧ s.spm.clearing = false ∧ s.cml.directory = some (directoryTo 0)
    ∧ lowestOf ((s.onSpm fun m => { m with slots := m.slots.modify 0 fun _ => Slot.empty }).spm.numbered fun y => y.state.writeSide)
      = none
    ∧ (let u := writing .streaming { pass := 0, mark := 12 } [slotOf .sealed 0];
      lowestOf (u.freeRun.spm.numbered fun y => y.state.writeSide) = some (0, 0)) := by decide
theorem witness_StripesAreJudged_directory :
    let d := directoryTo 0
    0 < d.passes.length ∧ d.entry 0 = none
    ∧ (d.apply { stripe := 0, pos := { pass := 0, mark := 0 }, first := 0, flags := [] }).entry 0 ≠ none
    ∧ d.index.length + (filemarkRecords 0 []).length ≤ 512 := by decide
/-- R76: an end mark moves forward along its pass only, upward on pass 0 and downward on pass 1. -/
theorem test_end_mark_moves_forward :
    (let d := (directoryTo 0).apply { stripe := 0, pos := { pass := 0, mark := 600 }, first := 0, flags := [] }
      let g := d.apply { stripe := 1, pos := { pass := 0, mark := 1200 }, first := 0, flags := [] }
      (d.entry 0).map (·.endMark) = some 606 ∧ (g.entry 0).map (·.endMark) = some 1206)
    ∧ (let d := (directoryTo 0).apply { stripe := 0, pos := { pass := 1, mark := 1200 }, first := 0, flags := [] }
      let g := d.apply { stripe := 1, pos := { pass := 1, mark := 2400 }, first := 0, flags := [] }
      (d.entry 1).map (·.endMark) = some 1194 ∧ (g.entry 1).map (·.endMark) = some 1194) := by decide
/-- The index of 512 entries at its bound: one more filemark makes it incomplete. -/
theorem witness_StripesAreJudged_index :
    let d := { directoryTo 0 with index := List.replicate 512 (0, 0) }
    d.index.length ≤ 512 ∧ 512 < d.index.length + (filemarkRecords 0 [7]).length := by
  intro d
  have h : d.index.length = 512 := List.length_replicate
  exact ⟨Nat.le_of_eq h, by rw [h]; decide⟩
/-- R165: a verify failure with copy number 3 takes the index to 700 and the session to WRITE_FAILED. -/
theorem test_copy_three_fails :
    let t := (judging .writeOpen false .awaitVerify 3).judgeFailed 0 (some { rows := 4, maxCorrected := 9 })
    t.spm.direction = .writeFailed ∧ t.hm.ci = 700 ∧ t.cw.pending.map (·.code) = [NoteKind.writeFailed.code, 3] := by decide

/-- The first speed fault of a writing tape, with a stripe in transfer or ARMED and a report due or none; and of a reading one. -/
theorem witness_TensionAndSpeedFaults_writing :
    (∀ flight ∈ [none, some (inFlight 100), some { inFlight 0 with transfer := false }],
      ∀ due ∈ [none, some ({ slot := 1, mark := 0, runOn := false } : Verify)],
      let s := ((writing .streaming { pass := 0, mark := 12 } [slotOf .writing 1, slotOf .awaitVerify 0]).onTte fun t =>
        { t with inFlight := flight, verify := due }).onMc fun m => { m with offRun := 16 };
      s.mc.judging = true ∧ 16 ≤ s.mc.offRun ∧ s.mc.speedFaults = 0 ∧ s.mc.state = .streaming ∧ s.tte.read = none
      ∧ s.tte.inFlight = flight ∧ s.tte.verify = due ∧ (s.slotAt 0).state = .writing)
    ∧ (let r := { readState { pass := 0, mark := 6 } with reception := some (reception true) };
      let s := (readingTape .streaming r [{ Slot.empty with state := .reading }]).onMc fun m => { m with offRun := 16 };
      s.mc.judging = true ∧ 16 ≤ s.mc.offRun ∧ s.mc.speedFaults = 0 ∧ s.mc.state = .streaming ∧ s.tte.read = some r
      ∧ r.reception = some (reception true)) := by decide
/-- R68, R72, R122: a speed fault while writing returns the stripe in flight to SEALED and makes the report due count as missing. -/
theorem test_speed_fault_while_writing :
    let s := ((writing .streaming { pass := 0, mark := 12 } [slotOf .writing 1, slotOf .awaitVerify 0]).onTte fun t =>
        { t with inFlight := some (inFlight 100), verify := some { slot := 1, mark := 0, runOn := false } }).onMc fun m =>
      { m with offRun := 16 }
    let t := after (exec .speedFault s)
    (t.spm.slots.take 2).map (fun x => (x.state, x.copy)) = [(.sealed, some 0), (.sealed, some 1)]
    ∧ t.mc.state = .repositioning ∧ t.tte.inFlight = none ∧ t.tte.verify = none := by decide

/-- RECEPTION_REPORT with a reception that has bytes in the FIFO: the bytes just below and just above them. -/
theorem witness_RowsThatLeaveMemory_reception :
    let r := { readState { pass := 0, mark := 0 } with reception := some { reception true with stored := 64 } }
    let s := (readingTape .streaming r [{ Slot.empty with state := .reading }]).onTte fun t => { t with fifo := [7, 8] }
    Memory.wf s.dram = true ∧ Memory.wf s.cartridge = true
    ∧ s.tte.read.bind (·.reception) = some { reception true with stored := 64 }
    ∧ 63 < s.slotBase 0 + 64 ∧ s.slotBase 0 + 64 + min s.tte.fifo.length (1048576 - 64) ≤ 66 := by decide +kernel

theorem witness_RateAndLevelBounded :
    State.reset.rg.f ≤ 4095 ∧ ({ State.reset.rg with level := 2, target := some 3 } : Rg).target = some 3
    ∧ 3 ≠ ({ State.reset.rg with level := 2, target := some 3 } : Rg).level
    ∧ ({ State.reset.rg with level := 2, target := some 4 } : Rg).target ≠ some 3 := by decide

/-- A retry due at a window with its origin at mark 12. -/
def dueState : ReadState :=
  { readState { pass := 0, mark := 24 } with
    window := some { origin := { pass := 0, mark := 12 }, count := 8, counting := true }, retries := 3, inRetry := true, retryDue := true }
theorem witness_PositionsAreRead_start :
    (let p : TapePos := { pass := 0, mark := 59994 };
      let s := readingTape .streaming (readState p) (List.replicate 8 (slotOf .readDone 1));
      p.startable = true ∧ s.lowestFree = none ∧ State.reset.spm.direction ≠ .readOpen
      ∧ (readingTape .streaming (readState p) [slotOf .reading 1]).spm.firstIn .reading ≠ none ∧ s.mc.slowing = false ∧ s.mc.thermal = .normal ∧ (readState p).going = true
      ∧ (readState p).reception = none ∧ (readState p).asked = false ∧ s.tte.loopback = none)
    ∧ (∀ retry ∈ [false, true],
      let p : TapePos := { pass := 0, mark := 0 };
      let r := { readState p with inRetry := retry };
      let s := readingTape .streaming r [];
      p.startable = true ∧ s.lowestFree = some 0 ∧ s.tte.read = some r ∧ s.mc.state = .streaming ∧ s.mc.slowing = false
      ∧ s.spm.direction = .readOpen ∧ s.spm.firstIn .reading = none
      ∧ r.going = true ∧ r.reception = none ∧ r.asked = false)
    ∧ (∀ pass ∈ [62, 63],
      let p : TapePos := { pass := pass, mark := if pass = 62 then 59995 else 5 };
      let s := readingTape .streaming (readState p) [];
      p.startable = false ∧ (readState p).going = true ∧ s.mc.state = .streaming) ∧ 62 < 63 ∧ 63 ≤ 63 := by decide
theorem witness_PositionsAreRead_reports :
    let r := { readState { pass := 0, mark := 0 } with reception := some (reception true) }
    let s := readingTape .streaming r [{ Slot.empty with state := .reading }]
    s.tte.read = some r ∧ r.reception = some (reception true) ∧ (reception true).started = true
    ∧ 63 ≤ ({ pass := 63, mark := 5 } : TapePos).pass := by decide
/-- R86: the bytes that still lie in the FIFO are in the slot when the report comes. -/
theorem test_report_finds_the_bytes_stored :
    let r := { readState { pass := 0, mark := 0 } with reception := some { reception true with stored := 64 } }
    let s := (readingTape .streaming r [{ Slot.empty with state := .reading }]).onTte fun t => { t with fifo := [7, 8] }
    (after (exec (.receptionReport 0 0 false false { rows := 0, maxCorrected := 0 }) s)).dram = [(64, 7), (65, 8)] := by decide +kernel
/-- A retry begins with the tape standing and streaming; after the fourth a marker is asked for, with a FREE slot or none. -/
theorem witness_PositionsAreRead_retry :
    (∀ g ∈ [MotionState.ready, .streaming],
      let s := readingTape g dueState [];
      s.tte.read = some dueState ∧ dueState.window.isSome = true ∧ dueState.retryDue = true ∧ dueState.reception = none
      ∧ s.mc.state ≠ .fault ∧ s.mc.job = none ∧ (dueState.inRetry = false ∨ dueState.retries < 4))
    ∧ (let r := { dueState with retries := 4 };
      r.inRetry = true ∧ 4 ≤ r.retries ∧ r.window.isSome = true ∧ r.retryDue = true
      ∧ (readingTape .ready r []).lowestFree = some 0 ∧ (readingTape .ready r []).spm.direction = .readOpen
      ∧ (readingTape .ready r (List.replicate 8 (slotOf .readDone 1))).lowestFree = none) := by decide
/-- "Example: a missing stripe and its retry": with the window's origin at 1,206 the retry's read point is 1,194. -/
theorem test_retry_reads_from_1194 :
    let w : Window := { origin := { pass := 2, mark := 1206 }, count := 8, counting := true }
    let t := after (exec .retryStart (readingTape .ready { dueState with window := some w, inRetry := false, retries := 0 } []))
    (t.tte.read.bind (·.point)) = some { pass := 2, mark := 1194 } := by decide
theorem witness_PositionsAreRead_full : 16384 ≤ (List.replicate 16384 (0 : Byte)).length := by
  simp only [List.length_replicate]; decide

theorem witness_AcceptedCopiesAreSound :
    let h : Header := { stripe := 0, generation := 6, pass := 0, copy := 0, mark := 0, entries := 1, first := 0, dataBytes := 100 }
    (readingTape .streaming (readState { pass := 0, mark := 0 }) []).ruling (readState { pass := 0, mark := 0 }) (reception true) h
      (some (false, true, { rows := 0, maxCorrected := 3 })) = .accepted := by decide

/-- A header search for a record. -/
def searching (blanks : Nat) : Job :=
  { Job.new 0 .locate .searching with search := some { Search.new (.record 5) false { pass := 0, mark := 0 } with blanks := blanks } }
/-- A stamped header of stripe 1 with records 5 and 6. -/
def goodHeader : HeaderRead :=
  { valid := true, bytes := stampHeader (Header.sealed 1 6 2 5 100) { pass := 0, mark := 6 } 0 }
theorem witness_HeaderReportsAreRuled :
    (let s := (inState .moving).onMc fun m => { m with job := some (searching 0) };
      s.mc.job = some (searching 0) ∧ (searching 0).stage = .searching ∧ s.mc.state = .moving ∧ s.mc.slowing = false)
    ∧ (searching 0).search.map (·.blanks) = some 0 ∧ (searching 1).search.map (·.blanks) = some 1
    ∧ headerValidAt true (zeros 64) { pass := 0, mark := 6 } = false
    ∧ headerValidAt goodHeader.valid goodHeader.bytes { pass := 0, mark := 6 } = true
    ∧ (Header.ofBytes goodHeader.bytes).first ≤ 5 ∧ 5 < (Header.ofBytes goodHeader.bytes).first + (Header.ofBytes goodHeader.bytes).entries := by
  decide +kernel

/-- A SPACE over filemarks at its header search under a VALID directory whose end of data lies at the beginning of tape. -/
theorem witness_HeaderReportsAreRuled_marks :
    let x := { Search.new (.marks 0 (some 5) 1) false { pass := 0, mark := 0 } with expected := 0 }
    let plan : SpacePlan := { filemarks := true, count := 1, origin := 0 }
    let j := { Job.new 0 .space .searching with search := some x, space := some plan }
    let s := (withDirectory .valid 5).onMc fun m => { m with state := .moving, job := some j }
    s.mc.job = some j ∧ j.search = some x ∧ j.stage = .searching ∧ s.mc.state = .moving ∧ s.mc.slowing = false
    ∧ x.goal ≠ .stale ∧ x.window = none ∧ x.scan = false ∧ s.validDirectory = some (directoryTo 5)
    ∧ (directoryTo 5).endPos.pass = 0 ∧ (directoryTo 5).endPos.offset ≤ ({ pass := 0, mark := 6 } : TapePos).offset
    ∧ j.space = some plan ∧ 0 < plan.count ∧ x.found.length < plan.count.natAbs := by decide
/-- R132: with the index incomplete and the position at the end of data, a forward SPACE over filemarks ends there. -/
theorem test_space_at_the_end_of_data :
    let d : Directory := { directoryTo 5 with complete := false }
    let s := (withDirectory .valid 5).onMc fun m => { m with dsPos := some { atStart with stripe := 5, record := 5 } }
    let t := after (exec (.space 0 0 1 1) (s.onCml fun k => { k with directory := some d }))
    (t.mc.job.bind (·.finish)).map (·.result) = some .endOfData ∧ t.mc.job.map (·.stage) = some .toPlace := by decide +kernel

/-- A delivery opening at record 0 with the slot of a stripe read. -/
def opening (stripe : Nat) : State :=
  (readingTape .streaming (readState { pass := 0, mark := 6 }) [slotOf .readDone stripe]).onUe fun u =>
    { u with state := .opening, cmd := some 0, length := 20 }
/-- The record being delivered, and its slot. -/
def delivery (passOver : Bool) : Delivery :=
  { number := 0, raw := 20, stripe := 0, slot := 0, entry := 0, produced := 0, compressed := false, pieceAt := 64, pieceLength := 0
    fetched := 0, passOver := passOver }
/-- A delivery whose piece is used up, in a stripe whose entry is not a last piece. -/
def halfDelivered (l : List Slot) (eod : Option EodFound) : State :=
  (readingTape .streaming { readState { pass := 0, mark := 6 } with eod := eod } (slotOf .delivering 0 :: l)).onUe fun u =>
    { u with state := .open_, cmd := some 0, length := 20, record := some (delivery false) }
theorem witness_DeliveriesMoveOn_opening :
    (opening 0).ue.state = .opening ∧ (opening 0).openingAtEnd = none ∧ (opening 0).mc.dsPos = some atStart
    ∧ (opening 0).spm.bottom = some (0, 0) ∧ ((opening 0).slotAt 0).state ≠ .readFailed ∧ (opening 1).spm.bottom = some (1, 0)
    ∧ (opening 1).openingAtEnd = none ∧ (opening 0).mc.job = none ∧ (withJob (opening 0) .rewind .toPlace).mc.job ≠ none
    ∧ (withJob (opening 0) .rewind .toPlace).ue.state = .opening
    ∧ ((opening 0).onCml fun k => { k with condition := .valid, directory := some (directoryTo 0) }).openingAtEnd.isSome = true := by
  decide
/-- A failure marker at the bottom, met for the first time; the next stripe taken with none delivering. -/
theorem witness_DeliveriesMoveOn_marker :
    (let m : Marker := { stripe := 0, origin := { pass := 0, mark := 0 }, met := false };
      let s := ((readingTape .streaming (readState { pass := 0, mark := 6 }) [slotOf .readFailed 0]).onUe fun u =>
        { u with state := .opening, cmd := some 0, length := 20 }).onTte fun t => { t with markers := [m] };
      s.ue.state = .opening ∧ s.mc.job = none ∧ s.openingAtEnd = none ∧ s.mc.dsPos = some atStart ∧ s.spm.bottom = some (0, 0)
      ∧ (s.slotAt 0).state = .readFailed ∧ s.tte.markers.find? (·.stripe == 0) = some m ∧ m.met = false)
    ∧ (opening 0).spm.firstIn .delivering = none := by decide
/-- A record of no bytes decoded whole, a command outstanding to complete, and a slot delivering its last entry and its first of two. -/
def lastDelivery (entries length : Nat) : State :=
  (((readingTape .streaming (readState { pass := 0, mark := 6 }) [{ slotOf .delivering 0 with entries := entries }]).onUe fun u =>
    { u with state := .open_, cmd := some 0, length := length, record := some { delivery false with raw := 0 } }).onCi fun c =>
      { c with outstanding := waitingCommands 1 }).onDram fun m => Memory.write m 1048568 6
theorem witness_DeliveriesMoveOn_ends :
    (let s := lastDelivery 1 20;
      s.ue.record = some { delivery false with raw := 0 } ∧ s.decodedAll { delivery false with raw := 0 } = true
      ∧ (s.entryAt 0 0).last = true ∧ s.ue.cmd = some 0
      ∧ (s.ci.outstanding.find? fun u => u.id == 0 && u.stage != .handed).isSome = true ∧ (s.slotAt 0).entries ≤ 0 + 1)
    ∧ (0 + 1 < ((lastDelivery 2 20).slotAt 0).entries ∧ (lastDelivery 2 20).spm.firstIn .delivering = some 0) := by decide
/-- R98: a record of 0 bytes read whole with L = 0 ends OK, with L = 20 ends SHORT_RECORD once the cursor stands there. -/
theorem test_delivery_results :
    ((lastDelivery 1 0).finishDelivery.cw.pending.map (·.value)) = [Result.ok.code]
    ∧ (((lastDelivery 1 20).onUe fun u => { u with cursor := 20 }).finishDelivery.cw.pending.map (·.value))
      = [Result.shortRecord.code] := by decide
/-- The last piece of a record of one byte, with these coded bytes in the decoder. -/
def lastPiece (coded : List Byte) : State :=
  (lastDelivery 1 20).onUe fun u =>
    { u with record := some { delivery false with raw := 1, compressed := true }, decoder := { Decoder.empty with input := coded } }
/-- A stream of one STORED byte ends over it, and one with a chunk header of 0 fails a check. -/
theorem witness_DeliveriesMoveOn_streams :
    let d := { delivery false with raw := 1, compressed := true }
    let run (s : State) := Decoding.run 1 true false 1024
      { decoder := s.ue.decoder, produced := 0, output := s.ue.output, crc := s.ue.crc }
    ∀ s ∈ [lastPiece [1, 128, 65], lastPiece [0, 0]],
      s.ue.record = some d ∧ d.passOver = false ∧ s.ue.state = .open_ ∧ (s.entryAt d.slot d.entry).last = true
      ∧ d.fetched = d.pieceLength ∧ (run (lastPiece [1, 128, 65])).2 = .over
      ∧ (run (lastPiece [1, 128, 65])).1.decoder.input = [] ∧ (run (lastPiece [0, 0])).2 = .error := by decide +kernel
theorem witness_DeliveriesMoveOn_going :
    (halfDelivered [] none).handoverDue = some (delivery false)
    ∧ (halfDelivered [slotOf .readDone 1] none).spm.bottom = some (1, 1)
    ∧ ((halfDelivered [slotOf .readDone 1] none).slotAt 1).state ≠ .readFailed
    ∧ (halfDelivered [] (some { stripe := 1, byDirectory := false })).handoverDue = some (delivery false)
    ∧ (Decoding.run 20 false false 1024 ((halfDelivered [] none).ue.decoding (delivery false))).2 = .blocked := by decide


/-- 300 STORED bytes waiting in the decoder: it stops with the output buffer full. -/
theorem witness_DeliveriesMoveOn_decoding :
    (Decoding.run 300 true false 1024
      { decoder := { Decoder.empty with input := storedChunk (List.replicate 300 65) }, produced := 0, output := []
        crc := 0xFFFFFFFF }).2 = .paused := by decide +kernel

/-! ### Ends of passes and the engines at the port -/

/-- A session streaming at the end of a pass, with its pass-end target loaded. -/
def atEndOf (pass mark : Nat) (s : State) : State :=
  s.onMc fun m => { m with state := .streaming, travel := passTravel pass, pos := some { pass := pass, mark := mark }
                           targets := [{ mark := mark, purpose := .passEnd }] }
theorem witness_MarksAreCounted_passEnd :
    (∀ s ∈ [atEndOf 0 60000 (writing .streaming { pass := 0, mark := 59994 } []),
        atEndOf 63 0 (writing .streaming { pass := 63, mark := 6 } []),
        atEndOf 0 60000 (readingTape .streaming (readState { pass := 0, mark := 59994 }) []),
        atEndOf 0 60000 (readingTape .streaming { readState { pass := 0, mark := 0 } with retryDue := true } [])],
      s.mc.state = .streaming ∧ s.mc.matched .passEnd = true ∧ s.mc.matched .startMark = false
      ∧ s.mc.matched .locateStop = false ∧ s.tte.runOn = none ∧ s.tte.inFlight = none)
    ∧ (atEndOf 0 60000 (writing .streaming { pass := 0, mark := 59994 } [])).arming = true
    ∧ (let s := atEndOf 0 60000 (judging .writeFailed false .verified 0);
      s.arming = false ∧ s.mc.matched .passEnd = true ∧ s.tte.runOn = none ∧ s.tte.inFlight = none)
    ∧ ((movingAt 12).onMc fun m => { m with slowing := true }).mc.slowing = true
    ∧ (readState { pass := 0, mark := 0 }).going = true
    ∧ ({ readState { pass := 0, mark := 0 } with retryDue := true } : ReadState).going = false := by decide
/-- A header search at the end of a pass, and a locate stop reached. -/
theorem witness_MarksAreCounted_moves :
    (∀ s ∈ [(atEndOf 0 60000 readyTape), (atEndOf 63 0 readyTape)],
      let u := s.onMc fun m => { m with state := .moving, job := some (searching 0) }
      u.mc.state = .moving ∧ u.mc.matched .passEnd = true ∧ u.mc.matched .startMark = false ∧ u.mc.matched .locateStop = false
      ∧ u.mc.job = some (searching 0) ∧ (searching 0).stage = .searching ∧ (searching 0).search.isSome = true)
    ∧ (let s := (movingAt 12).onMc fun m => m.load 12 .locateStop;
      s.mc.matched .locateStop = true ∧ s.mc.matched .startMark = false ∧ s.mc.matched .passEnd = false) := by decide
/-- R69, R121: a session that failed turns at the end of the pass too, with the run-on of its last stripe, and stands in READY. -/
theorem test_failed_session_turns :
    let s := (atEndOf 0 59999 (judging .writeFailed false .awaitVerify 0)).onTte fun t =>
      { t with verify := some { slot := 0, mark := 0, runOn := false } }
    let e := after (exec (.markEvent 0) (s.onMc fun m => { m with targets := passTargets 0 }))
    let t := after (exec .turnaroundDone (after (exec .runOnEnd e)))
    e.mc.state = .turnaround ∧ e.tte.runOn = some 0 ∧ t.tte.verify = none ∧ t.mc.state = .ready
    ∧ t.mc.pos = some { pass := 1, mark := 60000 } := by decide +kernel
/-- R65, R69: a run-on over position 9,999 ends with the pass and the write point stays there; the tape then repositions. -/
theorem test_last_position_is_kept :
    let s := (atEndOf 0 59999 (writing .streaming { pass := 0, mark := 59994 } [])).onTte fun t =>
      { t with runOn := some 1, underrun := true }
    let e := after (exec (.markEvent 0) (s.onMc fun m => { m with targets := passTargets 0 }))
    let t := after (exec .runOnEnd e)
    e.tte.runOn = some 0 ∧ e.mc.state = .streaming ∧ t.mc.state = .repositioning ∧ t.rg.stopKind = .underrun
    ∧ t.tte.writePoint = some { pass := 0, mark := 59994 } := by decide +kernel

/-- The Pack Engine with an entry open in slot 0, at a place to go on from. -/
def placing (g : Emit) : State :=
  (writing .ready { pass := 0, mark := 0 } [slotOf .filling 0]).onPe fun p =>
    { p with coder := .emitting, entryOpen := true, emit := g, output := [1, 2] }
/-- The port's next grant goes to each engine in turn, its slot lying in DRAM. -/
theorem witness_GrantServesUpstream_engines :
    (let s := (streamingTo { pass := 0, mark := 12 } [slotOf .writing 0]).onTte fun t =>
        { t with inFlight := some { slot := 0, transfer := true, fetched := 0, sent := 0 } };
      s.choice = some .tte ∧ s.tteWork = some (.fetch 0 0) ∧ s.slotBase 0 + Config.stripeSize ≤ Config.dramSize)
    ∧ (let s := (readingTape .streaming { readState { pass := 0, mark := 0 } with reception := some (reception true) }
          [{ Slot.empty with state := .reading }]).onTte fun t => { t with fifo := [7] };
      s.choice = some .tte ∧ s.tteWork = some (.store 0 0))
    ∧ (placing .place).choice = some .pack ∧ (placing .place).packWork = some (.bytes 0) ∧ 2 < freeSpace 100 1
    ∧ (placing .entry).choice = some .pack ∧ (placing .entry).packWork = some (.entry 0)
    ∧ (∀ w ∈ [[(0, [1]), (16, [2])], [(16, [2])]],
      (sealingEntry w).choice = some .pack ∧ (sealingEntry w).packWork = some (.seal { slot := 0, writes := w })
      ∧ ((sealingEntry w).slotAt 0).state = .filling ∧ ∀ x ∈ w, x.1 + x.2.length ≤ Config.dramSize)
    ∧ (let d : Delivery := { delivery false with pieceLength := 100 };
      let s := (readingTape .streaming (readState { pass := 0, mark := 6 }) [slotOf .delivering 0]).onUe fun u =>
        { u with state := .open_, cmd := some 0, length := 20, record := some d };
      s.choice = some .unpack ∧ s.unpackWork = some d) := by decide +kernel
/-- The channel beside a transfer, an armed stripe, a LOOPBACK, nothing, a started reception and one that waits. -/
theorem witness_GrantServesUpstream_flow :
    (∀ b ∈ [true, false],
      let f : InFlight := { slot := 0, transfer := b, fetched := 4, sent := 0 }
      let s := (streamingTo { pass := 0, mark := 12 } [slotOf .writing 0]).onTte fun t => { t with inFlight := some f }
      s.tte.inFlight = some f ∧ f.transfer = b)
    ∧ (let l : Loop := { cmd := 0, slot := 0, fetched := 4, sent := 0 };
      let s := State.reset.onTte fun t => { t with loopback := some l };
      s.tte.inFlight = none ∧ s.tte.loopback = some l)
    ∧ State.reset.tte.inFlight = none ∧ State.reset.tte.loopback = none
    ∧ ∀ b ∈ [true, false],
      let r := { readState { pass := 0, mark := 0 } with reception := some (reception b) }
      let s := readingTape .streaming r [{ Slot.empty with state := .reading }]
      s.tte.read = some r ∧ r.reception = some (reception b) ∧ (reception b).started = b := by decide
/-- R67, R86: the channel takes no more than the FIFO holds; a byte delivered to a full FIFO is lost and marks the overrun. -/
theorem test_channel_moves_the_fifo :
    (let f : InFlight := { slot := 0, transfer := true, fetched := 1048576, sent := 9 };
      let s := (streamingTo { pass := 0, mark := 12 } [slotOf .writing 0]).onTte fun t =>
        { t with inFlight := some f, fifo := [1, 2, 3] };
      let t := after (exec (.dramPortGrant (.taken 2)) s);
      t.tte.fifo = [3] ∧ t.tte.inFlight = some { f with sent := 11 }
      ∧ (after (exec (.dramPortGrant (.taken 5)) s)).tte.inFlight = some { f with sent := 12 })
    ∧ (let r := { readState { pass := 0, mark := 0 } with reception := some { reception true with stored := 1048576 } };
      let s := (readingTape .streaming r [{ Slot.empty with state := .reading }]).onTte fun t =>
        { t with fifo := List.replicate 16383 0 };
      let marked (bytes : List Byte) : Option Bool :=
        ((after (exec (.dramPortGrant (.delivered bytes)) s)).tte.read.bind (·.reception)).map (·.overrun);
      marked [1] = some false ∧ marked [1, 2] = some true) := by decide +kernel
/-- R179: placed bytes lie after the slot's header and data bytes, in one aligned block of 64. -/
theorem test_bytes_are_placed :
    (after (exec (.dramPortGrant .quiet) (placing .place))).dram = [(164, 1), (165, 2)] := by decide +kernel

end Sys2Proof.Tests
end

section
/-! The rate estimate, the base target and the hysteresis of R105 to R108, each said once, and O56 from them. -/

namespace Sys2Proof.Machine

theorem rateSample_le (dt : Nat) : rateSample dt ≤ 4095 := Nat.min_le_right _ _

theorem State.sampleRate_f_of_some {s : State} {t : Nat} (h : s.rg.sampleTime = some t) :
    s.sampleRate.rg.f = (7 * s.rg.f + rateSample (s.ms - t)) / 8 := by
  simp [State.sampleRate, h]

theorem State.sampleRate_f_of_none {s : State} (h : s.rg.sampleTime = none) : s.sampleRate.rg.f = s.rg.f := by
  simp [State.sampleRate, h]

/-- R105: an average of two values within the bound stays within it. -/
theorem State.sampleRate_f_le {s : State} (hf : s.rg.f ≤ 4095) : s.sampleRate.rg.f ≤ 4095 := by
  cases h : s.rg.sampleTime with
  | none => rwa [State.sampleRate_f_of_none h]
  | some t =>
    rw [State.sampleRate_f_of_some h]
    have hr := rateSample_le (s.ms - t)
    omega

/-- R107, step 2: the base target is the lowest level that meets the need, where any of the levels 0 to 4 does. -/
theorem baseTarget_le_iff {need k : Nat} (hk : k < 5) : baseTarget need ≤ k ↔ need ≤ Config.drainRate k := by
  unfold baseTarget
  interval_cases k
  all_goals
    simp only [Config.drainRate]
    split_ifs <;> omega

/-- The level that meets the greater need meets the smaller one. -/
theorem baseTarget_mono {f g : Nat} (hfg : f ≤ g) : baseTarget f ≤ baseTarget g := by
  by_cases hk : baseTarget g < 5
  · have hg : g ≤ Config.drainRate (baseTarget g) := (baseTarget_le_iff hk).1 le_rfl
    exact (baseTarget_le_iff hk).2 (hfg.trans hg)
  · exact (baseTarget_le f).trans (Nat.le_of_not_lt hk)

/-! The three rows of R108's table. -/

theorem Rg.follow_of_eq_level {r : Rg} {t : Nat} (ht : t = r.level) : r.follow t = { r with target := none } :=
  if_pos ht

theorem Rg.follow_of_pending {r : Rg} {t : Nat} (ht : t ≠ r.level) (hp : r.target = some t) :
    r.follow t = { r with level := t, target := none } :=
  (if_neg ht).trans (if_pos hp)

theorem Rg.follow_of_not_pending {r : Rg} {t : Nat} (ht : t ≠ r.level) (hp : r.target ≠ some t) :
    r.follow t = { r with target := some t } :=
  (if_neg ht).trans (if_neg hp)

/-- Settles O56: the estimate by R105's average, the target by its clamp, the base target by the need it meets, the level by
R108's table. -/
theorem rateAndLevelBounded : Obligations.RateAndLevelBounded :=
  ⟨fun _ => State.sampleRate_f_le,
    fun f n k free cap d => targetLevel_le f d n k free cap,
    fun _ _ => baseTarget_mono,
    fun _ _ => ⟨Rg.follow_of_eq_level, Rg.follow_of_pending, Rg.follow_of_not_pending⟩⟩

end Sys2Proof.Machine
end

section
/-! Chapter 10: what a note leaves unchanged, the effects of entering a health state (R164), R163's table state by state, and O14
from them. -/

namespace Sys2Proof.Machine

/-! ### Notes (R187) -/

@[simp] theorem State.tryRecord_pins (s : State) : s.tryRecord.pins = s.pins := by
  unfold State.tryRecord
  split <;> rfl

@[simp] theorem State.tryRecord_rg (s : State) : s.tryRecord.rg = s.rg := by
  unfold State.tryRecord
  split <;> rfl

@[simp] theorem State.tryRecord_cw_pending (s : State) : s.tryRecord.cw.pending = s.cw.pending := by
  unfold State.tryRecord
  split <;> rfl

@[simp] theorem State.note_pins (s : State) (k : NoteKind) (a b : Detail) : (s.note k a b).pins = s.pins := by
  unfold State.note
  split <;> simp

@[simp] theorem State.note_rg (s : State) (k : NoteKind) (a b : Detail) : (s.note k a b).rg = s.rg := by
  unfold State.note
  split <;> simp

theorem State.note_pending_of_new {s : State} {k : NoteKind} (a b : Detail)
    (hnew : (s.cw.pending.any fun i => i.cmd.isNone && i.code == k.code) = false) :
    (s.note k a b).cw.pending = s.cw.pending ++ [s.stamp none 0 k.code 1 a b] := by
  simp [State.note, hnew]

/-! ### Entering a health state (R164) -/

/-- The first two effects in R164's order: the state, and its CLEANING_REQUEST note but for GOOD. -/
def State.noteHealth (s : State) (h : Health) (cause : Nat) : State :=
  let s1 := s.onHm fun m => { m with health := h }
  if h = .good then s1
  else s1.note .cleaningRequest (dv 2 s.hm.ci ++ dv 1 h.code ++ dv 1 cause ++ du 4)
    (dv 4 ((s.hm.last.map (·.stripe)).getD Config.absent32) ++ du 4)

section
variable (s : State) {h : Health} (cause : Nat)

theorem State.enterHealth_of_eq (heq : h = s.hm.health) : s.enterHealth h cause = s := if_pos heq

/-- A change of state: the note, then the panel line, then in CLEAN_REQUIRED the level. -/
theorem State.enterHealth_of_ne (hne : h ≠ s.hm.health) :
    s.enterHealth h cause =
      let t := (s.noteHealth h cause).onPins fun p => { p with panel := h == .cleanRequired }
      if h = .cleanRequired then
        t.onRg fun r => { r with level := min r.level 3, target := none, held := r.held.map (min · 3) }
      else t :=
  if_neg hne

theorem State.noteHealth_good : s.noteHealth .good cause = s.onHm fun m => { m with health := .good } := rfl

theorem State.noteHealth_hm : (s.noteHealth h cause).hm = { s.hm with health := h } := by
  unfold State.noteHealth
  split
  · rfl
  · exact State.note_hm ..

theorem State.noteHealth_pins : (s.noteHealth h cause).pins = s.pins := by
  unfold State.noteHealth
  split <;> simp

theorem State.noteHealth_rg : (s.noteHealth h cause).rg = s.rg := by
  unfold State.noteHealth
  split <;> simp

theorem State.noteHealth_pending (hg : h ≠ .good)
    (hnew : (s.cw.pending.any fun i => i.cmd.isNone && i.code == 3) = false) :
    (s.noteHealth h cause).cw.pending = s.cw.pending ++
      [(s.onHm fun m => { m with health := h }).stamp none 0 3 1 (dv 2 s.hm.ci ++ dv 1 h.code ++ dv 1 cause ++ du 4)
        (dv 4 ((s.hm.last.map (·.stripe)).getD Config.absent32) ++ du 4)] := by
  unfold State.noteHealth
  rw [if_neg hg]
  exact State.note_pending_of_new _ _ hnew

/-- R161: the block takes the state and nothing else, whether or not the state is a new one. -/
theorem State.enterHealth_hm : (s.enterHealth h cause).hm = { s.hm with health := h } := by
  by_cases heq : h = s.hm.health
  · rw [s.enterHealth_of_eq cause heq, heq]
  · rw [s.enterHealth_of_ne cause heq, ← s.noteHealth_hm cause]
    dsimp only
    split <;> rfl

theorem State.enterHealth_pins (hne : h ≠ s.hm.health) :
    (s.enterHealth h cause).pins = { s.pins with panel := h == .cleanRequired } := by
  rw [s.enterHealth_of_ne cause hne, ← s.noteHealth_pins cause]
  dsimp only
  split <;> rfl

theorem State.enterHealth_rg (hne : h ≠ s.hm.health) :
    (s.enterHealth h cause).rg =
      if h = .cleanRequired then { s.rg with level := min s.rg.level 3, target := none, held := s.rg.held.map (min · 3) }
      else s.rg := by
  rw [s.enterHealth_of_ne cause hne, ← s.noteHealth_rg cause]
  dsimp only
  split <;> rfl

/-- The Completion Writer sees the note alone: the panel line and the level are not its state. -/
theorem State.enterHealth_cw (hne : h ≠ s.hm.health) : (s.enterHealth h cause).cw = (s.noteHealth h cause).cw := by
  rw [s.enterHealth_of_ne cause hne]
  dsimp only
  split <;> rfl

end

/-! ### R163's table -/

theorem healthNext_of_700_le {ci : Nat} (h : Health) (hci : 700 ≤ ci) : healthNext ci h = .cleanRequired := if_pos hci

theorem healthNext_good (ci : Nat) :
    healthNext ci .good = if 700 ≤ ci then .cleanRequired else if 400 ≤ ci then .cleanAdvised else .good := by
  simp [healthNext]

theorem healthNext_cleanAdvised (ci : Nat) :
    healthNext ci .cleanAdvised = if 700 ≤ ci then .cleanRequired else if ci < 300 then .good else .cleanAdvised := by
  simp [healthNext]

theorem healthNext_cleanRequired (ci : Nat) :
    healthNext ci .cleanRequired = if ci < 600 then .cleanAdvised else .cleanRequired := by
  by_cases hlt : ci < 600
  · have hno : ¬700 ≤ ci := by omega
    simp [healthNext, hlt, hno]
  · simp [healthNext, hlt]

/-- The indices at which each state stands; neighbouring ranges overlap, which is the table's hysteresis. -/
theorem healthNext_eq_self_iff (ci : Nat) (h : Health) :
    healthNext ci h = h ↔
      match h with
      | .good => ci < 400
      | .cleanAdvised => 300 ≤ ci ∧ ci < 700
      | .cleanRequired => 600 ≤ ci := by
  cases h with
  | good => rw [healthNext_good]; split_ifs <;> simp <;> omega
  | cleanAdvised => rw [healthNext_cleanAdvised]; split_ifs <;> simp <;> omega
  | cleanRequired => rw [healthNext_cleanRequired]; split_ifs <;> simp <;> omega

/-- An index that the clamp lowers is on the table's first line before and after. -/
theorem healthNext_clamp (ci : Nat) (h : Health) : healthNext (min ci 1000) h = healthNext ci h := by
  rcases le_total ci 1000 with hle | hge
  · rw [Nat.min_eq_left hle]
  · rw [Nat.min_eq_right hge, healthNext_of_700_le _ (by decide), healthNext_of_700_le _ (by omega)]

/-- From a state that stands, a fall of the index by at most 1 cannot cross two of the table's ways back: CLEAN_REQUIRED, left
below 600, is left at 599, where CLEAN_ADVISED stands. -/
theorem healthNext_stands {old ci : Nat} {h : Health} (hs : healthNext old h = h) (hfall : old ≤ ci + 1) :
    healthNext ci (healthNext ci h) = healthNext ci h := by
  rw [healthNext_eq_self_iff] at hs ⊢
  cases h with
  | good => rw [healthNext_good]; split_ifs <;> simp <;> omega
  | cleanAdvised => rw [healthNext_cleanAdvised]; split_ifs <;> simp <;> omega
  | cleanRequired => rw [healthNext_cleanRequired]; split_ifs <;> simp <;> omega

/-! ### A change of the index (R161, R163) -/

theorem State.setIndex_hm (s : State) (ci cause : Nat) :
    (s.setIndex ci cause).hm = { s.hm with ci := min ci 1000, health := healthNext ci s.hm.health } := by
  rw [← healthNext_clamp]
  exact State.enterHealth_hm ..

theorem State.setIndex_settled {s : State} {ci : Nat} (cause : Nat) (hs : s.hm.Settled) (hfall : s.hm.ci ≤ ci + 1) :
    (s.setIndex ci cause).hm.Settled := by
  rw [State.setIndex_hm]
  refine ⟨Nat.min_le_right _ _, ?_⟩
  rw [healthNext_clamp]
  exact healthNext_stands hs.2 hfall

/-- Settles O14: R164's effects one by one, then R163's table at the clamped index. -/
theorem healthEntryEffects : Obligations.HealthEntryEffects := by
  refine ⟨fun s h cause => ⟨s.enterHealth_of_eq cause, fun hne => ⟨s.enterHealth_hm cause, s.enterHealth_pins cause hne,
    s.enterHealth_rg cause hne, ?good, ?pending⟩⟩, fun s ci cause => ?index⟩
  case good =>
    rintro rfl
    rw [s.enterHealth_cw cause hne, s.noteHealth_good, State.onHm_cw]
  case pending =>
    intro hg hnew
    refine ⟨_, (congrArg Cw.pending (s.enterHealth_cw cause hne)).trans (s.noteHealth_pending cause hg hnew),
      rfl, rfl, rfl, rfl, rfl, ?_⟩
    cases hl : s.hm.last <;> simp [State.stamp, hl, Config.absent32]
  case index =>
    refine ⟨?_, ?_, State.setIndex_settled cause⟩
    · rw [State.setIndex_hm]
    · rw [State.setIndex_hm]
      rfl

end Sys2Proof.Machine
end

section
/-! What every row answers, said once: the state as it stood (log entry 2), or what follows of itself of an effect; and what every
effect keeps. O5, O6 and O8 rest on it, and so does O7 for the rows that write no memory. -/

namespace Sys2Proof.Machine

/-- The row answers `s` as it stood, or the end of an effect that has `P`. -/
inductive Answers (s : State) (P : State → Prop) : RowOutcome → Prop
  | unchanged : Answers s P s.unchanged
  | done {e : State} (h : P e) : Answers s P e.done

theorem State.dram_of_rest {t : State} {x : List Host.Cell × List Host.Cell × List Instr} (h : t.rest = x) : t.dram = x.1 :=
  congrArg (·.1) h

theorem State.cartridge_of_rest {t : State} {x : List Host.Cell × List Host.Cell × List Instr} (h : t.rest = x) :
    t.cartridge = x.2.1 := congrArg (·.2.1) h

theorem State.pending_of_rest {t : State} {x : List Host.Cell × List Host.Cell × List Instr} (h : t.rest = x) :
    t.pending = x.2.2 := congrArg (·.2.2) h

/-- An effect that keeps the invariant, both memories and the queue. -/
def State.KeepsRest (s e : State) : Prop := (s.Inv → e.Inv) ∧ e.rest = s.rest

/-- An effect that keeps the invariant and the queue. -/
def State.KeepsQueue (s e : State) : Prop := (s.Inv → e.Inv) ∧ e.pending = s.pending

theorem State.KeepsRest.keepsQueue {s e : State} (h : s.KeepsRest e) : s.KeepsQueue e := ⟨h.1, State.pending_of_rest h.2⟩

/-! ### Rules -/

section
variable {s : State} {P : State → Prop}

theorem Answers.mono {Q : State → Prop} {o : RowOutcome} (h : Answers s P o) (hpq : ∀ e, P e → Q e) : Answers s Q o := by
  cases h with
  | unchanged => exact .unchanged
  | done h => exact .done (hpq _ h)

theorem Answers.exists_next {o : RowOutcome} (h : Answers s P o) : ∃ t, o = .next t := by
  cases h with
  | unchanged => exact ⟨_, rfl⟩
  | done h => exact ⟨_, rfl⟩

/-- The next state is the one that stood, or the end of an effect. -/
theorem Answers.of_eq_next {o : RowOutcome} {t : State} (h : Answers s P o) (ho : o = .next t) :
    t = s ∨ ∃ e, P e ∧ t = e.finish := by
  cases h with
  | unchanged => cases ho; exact .inl rfl
  | done h => cases ho; exact .inr ⟨_, h, rfl⟩

/-- A row under a condition. -/
theorem Answers.ite {p : Prop} [Decidable p] {e : State} (h : P e) : Answers s P (if p then e.done else s.unchanged) := by
  split
  · exact .done h
  · exact .unchanged

end

theorem State.finish_pending (s : State) : s.finish.pending = s.pending := State.pending_of_rest s.finish_rest

/-! ### The rows that write no memory -/

section
variable (s : State)

theorem answers_command (tag : BitVec 16) (flags : BitVec 8) (cmd : HostCmd) :
    Answers s s.KeepsRest (.next (s.command tag flags cmd)) :=
  .done (e := s.takeCmd tag flags (flagsMalformed flags) cmd) ⟨fun hi => by simp [hi], by simp⟩

theorem answers_loopbackReport (header : HeaderRead) (counts : Counts) :
    Answers s s.KeepsRest (execLoopbackReport header counts s) := by
  unfold execLoopbackReport
  split
  · split
    · exact .unchanged
    · exact .done ⟨fun hi => by simp [hi], by simp⟩
  · exact .unchanged

theorem answers_holdLimitExpiry (who : Initiator) : Answers s s.KeepsRest (execHoldLimitExpiry who s) := by
  unfold execHoldLimitExpiry
  split
  · exact .done ⟨fun hi => State.answerError_inv _ _ (State.unhold_inv _ _ hi), by simp⟩
  · exact .unchanged

theorem answers_i2cRetryWaitExpiry : Answers s s.KeepsRest (execI2cRetryWaitExpiry s) := by
  unfold execI2cRetryWaitExpiry
  split
  · exact .unchanged
  · exact .done ⟨fun hi => by simp [hi], by simp⟩

theorem answers_servoLock : Answers s s.KeepsRest (execServoLock s) := by
  unfold execServoLock
  split
  · next t _ _ => cases t.kind <;> exact .done ⟨fun hi => by simp [hi], by simp⟩
  · exact .unchanged

theorem answers_leaderNotCaptured (tapeInPath : Bool) : Answers s s.KeepsRest (execLeaderNotCaptured tapeInPath s) := by
  unfold execLeaderNotCaptured
  split
  · exact .done ⟨fun hi => by simp [hi], by simp⟩
  · exact .unchanged

theorem answers_threadTimeout (tapeInPath : Bool) : Answers s s.KeepsRest (execThreadTimeout tapeInPath s) := by
  unfold execThreadTimeout
  split
  · exact .done ⟨fun hi => by simp [hi], by simp⟩
  · exact .unchanged

theorem answers_tensionUp : Answers s s.KeepsRest (execTensionUp s) :=
  .ite ⟨fun hi => by simp [hi], by simp⟩

theorem answers_tensionFault : Answers s s.KeepsRest (execTensionFault s) := by
  have hfault : s.KeepsRest (s.enterFault 0 .motionFault noDetail) := ⟨fun hi => by simp [hi], by simp⟩
  unfold execTensionFault
  split
  · split
    · split
      · exact .done ⟨fun hi => by simp [hi], by simp⟩
      · exact .done hfault
    · exact .done hfault
  · exact .unchanged

theorem answers_speedFault : Answers s s.KeepsRest (execSpeedFault s) := by
  unfold execSpeedFault
  refine .ite ?_
  split
  · exact ⟨fun hi => by simp [hi], by simp⟩
  · exact ⟨fun hi => by simp [hi], by simp⟩

theorem answers_markEvent (wait : Nat) : Answers s s.KeepsRest (execMarkEvent wait s) :=
  .ite ⟨fun hi => by simp [hi], by simp⟩

theorem answers_runOnEnd : Answers s s.KeepsRest (execRunOnEnd s) :=
  .ite ⟨fun hi => by simp [hi], by simp⟩

theorem answers_wearStep : Answers s s.KeepsRest (execWearStep s) := by
  unfold execWearStep
  split
  · exact .unchanged
  · exact .done ⟨fun hi => by simp [hi], by simp⟩

theorem answers_turnaroundDone : Answers s s.KeepsRest (execTurnaroundDone s) :=
  .ite ⟨fun hi => by simp [hi], by simp⟩

theorem answers_repositionReady : Answers s s.KeepsRest (execRepositionReady s) :=
  .ite ⟨fun hi => by simp [hi], by simp⟩

theorem answers_governorStart : Answers s s.KeepsRest (execGovernorStart s) := by
  unfold execGovernorStart
  split
  · exact .ite ⟨fun hi => by simp [hi], by simp⟩
  · exact .unchanged

theorem answers_readAheadResume : Answers s s.KeepsRest (execReadAheadResume s) := by
  unfold execReadAheadResume
  split
  · exact .ite ⟨fun hi => by simp [hi], by simp⟩
  · exact .unchanged

theorem answers_unthreadDone : Answers s s.KeepsRest (execUnthreadDone s) :=
  .ite ⟨fun hi => by simp [hi], by simp⟩

theorem answers_leaderHome : Answers s s.KeepsRest (execLeaderHome s) := by
  unfold execLeaderHome
  split
  · exact .ite ⟨fun hi => by simp [hi], by simp⟩
  · exact .unchanged

theorem answers_recoveryTensionTimeout : Answers s s.KeepsRest (execRecoveryTensionTimeout s) := by
  unfold execRecoveryTensionTimeout
  split
  · exact .ite ⟨fun hi => by simp [hi], by simp⟩
  · exact .unchanged

theorem answers_sequenceStart : Answers s s.KeepsRest (execSequenceStart s) :=
  .done ⟨fun hi => by simp [hi], by simp⟩

theorem answers_conversionDone (raw : BitVec 12) : Answers s s.KeepsRest (execConversionDone raw s) := by
  unfold execConversionDone
  split
  · exact .done ⟨fun hi => by simp [hi], by simp⟩
  · exact .unchanged

theorem answers_coderTakeBytes (n : Nat) : Answers s s.KeepsRest (execCoderTakeBytes n s) :=
  .ite ⟨fun hi => by simp [hi], by simp⟩

theorem answers_fillingSlotTaken : Answers s s.KeepsRest (execFillingSlotTaken s) := by
  unfold execFillingSlotTaken
  split
  · exact .done ⟨fun hi => by simp [hi], by simp⟩
  · exact .unchanged

theorem answers_sealTimerExpiry : Answers s s.KeepsRest (execSealTimerExpiry s) := by
  unfold execSealTimerExpiry
  split
  · exact .done ⟨fun hi => by
      simp [State.triggerSeal_inv (s.elapse _) hi], by simp⟩
  · exact .unchanged

theorem answers_transferCountTermination : Answers s s.KeepsRest (execTransferCountTermination s) := by
  unfold execTransferCountTermination
  split
  · exact .ite ⟨fun hi => by simp [hi], by simp⟩
  · exact .unchanged

theorem answers_channelStarvation : Answers s s.KeepsRest (execChannelStarvation s) := by
  unfold execChannelStarvation
  split
  · exact .ite ⟨fun hi => by simp [hi], by simp⟩
  · exact .unchanged

theorem answers_verifyReport (mark : Nat) (header : HeaderRead) (counts : Counts) :
    Answers s s.KeepsRest (execVerifyReport mark header counts s) := by
  unfold execVerifyReport
  split
  · exact .unchanged
  · split
    · exact .unchanged
    · refine .done ?_
      split
      · exact ⟨fun hi => by simp [hi], by simp⟩
      · exact ⟨fun hi => by simp [hi], by simp⟩

theorem answers_readPositionStart : Answers s s.KeepsRest (execReadPositionStart s) := by
  unfold execReadPositionStart
  split
  · refine .ite ?_
    split
    · exact ⟨fun hi => by simp [hi], by simp⟩
    · exact ⟨fun hi => by simp [hi], by simp⟩
  · exact .unchanged

theorem answers_receptionOverrun : Answers s s.KeepsRest (execReceptionOverrun s) := by
  unfold execReceptionOverrun
  split
  · exact .ite ⟨fun hi => by simp [hi], by simp⟩
  · exact .unchanged

theorem answers_retryStart : Answers s s.KeepsRest (execRetryStart s) := by
  unfold execRetryStart
  split
  · refine .ite ?_
    split
    · exact ⟨fun hi => by simp [hi], by simp⟩
    · exact ⟨fun hi => by simp [hi], by simp⟩
  · exact .unchanged

theorem answers_deliverySlotTaken : Answers s s.KeepsRest (execDeliverySlotTaken s) :=
  .ite ⟨fun hi => by simp [hi], by simp⟩

theorem answers_decodeStep : Answers s s.KeepsRest (execDecodeStep s) := by
  unfold execDecodeStep
  split
  · exact .ite ⟨fun hi => by simp [hi], by simp⟩
  · exact .unchanged

theorem answers_handover : Answers s s.KeepsRest (execHandover s) := by
  unfold execHandover
  split
  · exact .done ⟨fun hi => by simp [hi], by simp⟩
  · exact .unchanged

theorem answers_headerReport (pass mark : Nat) (blank : Bool) (header : HeaderRead) (entryFlags : List Byte) :
    Answers s s.KeepsRest (execHeaderReport pass mark blank header entryFlags s) := by
  unfold execHeaderReport
  split
  · exact .ite ⟨fun hi => by simp [hi], by simp⟩
  · exact .unchanged

theorem answers_tapeStopped : Answers s s.KeepsRest (execTapeStopped s) :=
  .ite ⟨fun hi => by simp [hi], by simp⟩

end

/-! ### The rows that may write memory -/

section
variable (s : State)

/-- What an access does as it arrives (R171, R176), before what follows of itself. -/
theorem answers_arrive (a : Access) :
    Answers s (fun e => e = (s.arriveAt a).grantAtOnce a) (.next (s.arrive a)) := by
  unfold State.arrive
  split
  · exact .unchanged
  · exact .done rfl

theorem State.grantAtOnce_keepsQueue (a : Access) : s.KeepsQueue ((s.arriveAt a).grantAtOnce a) :=
  ⟨fun hi => by simp [hi], (State.grantAtOnce_queue _ a).trans (State.pending_of_rest (s.arriveAt_rest a))⟩

theorem answers_arrive_keepsQueue (a : Access) : Answers s s.KeepsQueue (.next (s.arrive a)) :=
  (answers_arrive s a).mono fun _ he => he ▸ s.grantAtOnce_keepsQueue a

theorem answers_cartridgeInserted (protected_ : Bool) (mem : List Host.Cell) :
    Answers s (fun e => s.KeepsQueue e ∧ e.dram = s.dram) (execCartridgeInserted protected_ mem s) := by
  unfold execCartridgeInserted
  refine .ite ⟨⟨fun hi => State.note_inv _ _ _ _ ?_, ?_⟩, ?_⟩
  · exact ⟨⟨hi.1.1, Memory.wf_ofCells _ _⟩, hi.2⟩
  · exact State.pending_of_rest (State.note_rest ..)
  · exact State.dram_of_rest (State.note_rest ..)

/-- CARTRIDGE_REMOVAL up to the LOAD that it ends: the pins, the cartridge's memory, its link and its note. -/
def State.withoutCartridge (s : State) : State :=
  ((((s.onPins fun p => { p with present := false }).onCartridge fun _ => []).onMc fun m =>
    { m with state := .empty, job := none }).onCml fun _ => Cml.reset).onHm fun h => { h with cleaning := .none }

theorem State.withoutCartridge_inv (hi : s.Inv) : s.withoutCartridge.Inv :=
  inv_onHm _ (show State.Inv _ from ⟨⟨hi.1.1, rfl⟩, hi.2⟩) (fun _ => rfl) fun _ => le_rfl

theorem answers_cartridgeRemoval :
    Answers s (fun e => s.KeepsQueue e ∧ e.dram = s.dram) (execCartridgeRemoval s) := by
  have hnote : (s.withoutCartridge.note .cartridgeRemoved noDetail noDetail).rest = (s.dram, [], s.pending) :=
    State.note_rest ..
  have hinv (hi : s.Inv) : (s.withoutCartridge.note .cartridgeRemoved noDetail noDetail).Inv :=
    State.note_inv _ _ _ _ (s.withoutCartridge_inv hi)
  unfold execCartridgeRemoval
  split
  · dsimp only
    split
    · refine .done ⟨⟨fun hi => State.complete_inv _ _ _ _ _ (hinv hi), ?_⟩, ?_⟩
      · exact State.pending_of_rest ((State.complete_rest ..).trans hnote)
      · exact State.dram_of_rest ((State.complete_rest ..).trans hnote)
    · exact .done ⟨⟨hinv, State.pending_of_rest hnote⟩, State.dram_of_rest hnote⟩
  · exact .unchanged

theorem State.linkNoAck_dram (op : LinkOp) (t : Transaction) : (s.linkNoAck op t).dram = s.dram :=
  State.dram_of_rest (State.linkNoAck_rest s op t)

theorem State.linkDone_dram (op : LinkOp) : (s.linkDone op).dram = s.dram :=
  State.dram_of_rest (State.linkDone_rest s op)

theorem State.linkAck_dram (op : LinkOp) (t : Transaction) (rest : List Transaction) :
    (s.linkAck op t rest).rest.1 = s.rest.1 := by
  cases t <;>
  · unfold State.linkAck
    dsimp only
    repeat' split
    all_goals simp [State.program]

theorem State.linkOutcome_dram (op : LinkOp) (t : Transaction) (rest : List Transaction) (z : LinkOutcome) :
    (s.linkOutcome op t rest z).dram = s.dram := by
  cases z with
  | ack => exact s.linkAck_dram op t rest
  | noAck => exact s.linkNoAck_dram op t
  | noAckAfterStop => cases t <;> exact State.linkNoAck_dram ..

theorem answers_i2cTransactionDone (z : LinkOutcome) :
    Answers s (fun e => s.KeepsQueue e ∧ e.dram = s.dram) (execI2cTransactionDone z s) := by
  unfold execI2cTransactionDone
  split
  · exact .unchanged
  · split
    · exact .done ⟨⟨State.linkOutcome_inv _ _ _ _ _, State.linkOutcome_queue ..⟩, State.linkOutcome_dram ..⟩
    · exact .unchanged

end

end Sys2Proof.Machine
end

section
/-! What an access leaves as it stood on its way to the arbiter: the other requests at place 2 and the cartridge link; and that of
its own requests at most one joins them. -/

namespace Sys2Proof.Machine

/-- What waits at place 2 of the arbiter, and the link. -/
def State.waiting (s : State) : List UpReq × Cml := (s.bpu.upstream, s.cml)

theorem State.upstream_of_waiting {t : State} {x : List UpReq × Cml} (h : t.waiting = x) : t.bpu.upstream = x.1 :=
  congrArg (·.1) h

theorem State.cml_of_waiting {t : State} {x : List UpReq × Cml} (h : t.waiting = x) : t.cml = x.2 := congrArg (·.2) h

/-! ### Operations that leave both -/

section
variable (s : State)

@[simp] theorem State.onDram_waiting (f : List Host.Cell → List Host.Cell) : (s.onDram f).waiting = s.waiting := rfl
@[simp] theorem State.onCi_waiting (f : Ci → Ci) : (s.onCi f).waiting = s.waiting := rfl
@[simp] theorem State.onCw_waiting (f : Cw → Cw) : (s.onCw f).waiting = s.waiting := rfl
@[simp] theorem State.onPe_waiting (f : Pe → Pe) : (s.onPe f).waiting = s.waiting := rfl
@[simp] theorem State.onSpm_waiting (f : Spm → Spm) : (s.onSpm f).waiting = s.waiting := rfl
@[simp] theorem State.onUe_waiting (f : Ue → Ue) : (s.onUe f).waiting = s.waiting := rfl
@[simp] theorem State.onRg_waiting (f : Rg → Rg) : (s.onRg f).waiting = s.waiting := rfl
@[simp] theorem State.onMc_waiting (f : Mc → Mc) : (s.onMc f).waiting = s.waiting := rfl
@[simp] theorem State.onSs_waiting (f : Ss → Ss) : (s.onSs f).waiting = s.waiting := rfl

@[simp] theorem State.askRing_waiting (r : RingReq) : (s.askRing r).waiting = s.waiting := rfl

@[simp] theorem State.answer_waiting (who : Initiator) (okay : Bool) (bytes : List Byte) :
    (s.answer who okay bytes).waiting = s.waiting := by
  cases who <;> rfl

@[simp] theorem State.answerError_waiting (a : Access) : (s.answerError a).waiting = s.waiting := s.answer_waiting ..

@[simp] theorem State.clearAnswer_waiting (who : Initiator) : (s.clearAnswer who).waiting = s.waiting := by
  cases who <;> rfl

@[simp] theorem State.tryRecord_waiting : s.tryRecord.waiting = s.waiting := by
  unfold State.tryRecord
  split <;> rfl

@[simp] theorem State.note_waiting (k : NoteKind) (a b : Detail) : (s.note k a b).waiting = s.waiting := by
  unfold State.note
  split <;> simp

@[simp] theorem State.complete_waiting (id : Nat) (r : Result) (a b : Detail) :
    (s.complete id r a b).waiting = s.waiting := by
  unfold State.complete
  split <;> simp

@[simp] theorem State.moveSlot_waiting (i : Nat) (old new : SlotState) (f : Slot → Slot) :
    (s.moveSlot i old new f).waiting = s.waiting := by
  unfold State.moveSlot
  split <;> rfl

@[simp] theorem State.returnSlot_waiting : s.returnSlot.waiting = s.waiting := by
  unfold State.returnSlot
  split <;> simp

@[simp] theorem State.deliveredFree_waiting (i : Nat) : (s.deliveredFree i).waiting = s.waiting := rfl

@[simp] theorem State.endDelivery_waiting (x : Nat × Nat) (r : Result) (residual : Option Nat) (stripe : Nat) :
    (s.endDelivery x r residual stripe).waiting = s.waiting := by
  unfold State.endDelivery
  split <;> simp

@[simp] theorem State.passRecord_waiting (i e : Nat) (x : Nat × Nat) (r : Result) (residual : Option Nat) :
    (s.passRecord i e x r residual).waiting = s.waiting := by
  unfold State.passRecord
  dsimp only
  split <;> simp

@[simp] theorem State.finishDelivery_waiting : s.finishDelivery.waiting = s.waiting := by
  unfold State.finishDelivery
  dsimp only
  repeat' split
  all_goals simp

@[simp] theorem State.unpackTaken_waiting (w : Nat) : (s.unpackTaken w).waiting = s.waiting := by
  unfold State.unpackTaken
  dsimp only
  split <;> simp

@[simp] theorem State.holdAccess_waiting (a : Access) (why : HoldWhy) (i : Nat) (d : Descriptor) :
    (s.holdAccess a why i d).waiting = s.waiting := by
  unfold State.holdAccess
  split
  · simp
  · rfl
  · rfl

theorem State.tryPack_waiting (a : Access) (d : Descriptor) {u : State} (hu : s.tryPack a d = some u) :
    u.waiting = s.waiting := by
  revert hu
  unfold State.tryPack
  split <;> rintro ⟨⟩ <;> simp

theorem State.tryUnpack_waiting (a : Access) (d : Descriptor) {u : State} (hu : s.tryUnpack a d = some u) :
    u.waiting = s.waiting := by
  revert hu
  unfold State.tryUnpack
  split <;> rintro ⟨⟩ <;> simp

@[simp] theorem State.handPack_waiting (a : Access) (i : Nat) (d : Descriptor) :
    (s.handPack a i d).waiting = s.waiting := by
  unfold State.handPack
  cases h : s.tryPack a d with
  | none => simp
  | some u => exact s.tryPack_waiting a d h

@[simp] theorem State.handUnpack_waiting (a : Access) (i : Nat) (d : Descriptor) :
    (s.handUnpack a i d).waiting = s.waiting := by
  unfold State.handUnpack
  cases h : s.tryUnpack a d with
  | none => simp
  | some u => exact s.tryUnpack_waiting a d h

@[simp] theorem State.refuseCommit_waiting (a : Access) (i code : Nat) (b : List Byte) :
    (s.refuseCommit a i code b).waiting = s.waiting := by
  unfold State.refuseCommit
  simp

@[simp] theorem State.judgeAttn_waiting : s.judgeAttn.waiting = s.waiting := rfl

end

/-! ### Joining those that wait -/

/-- The accesses that wait at place 2, oldest first; posted lines wait beside them. -/
def State.waitingAccesses (s : State) : List Access := s.waiting.1.filterMap UpReq.access?

/-- Of an access the same, but for the mark that its arrival puts on a POOL write (log entry 17). -/
def Access.Marked (a x : Access) : Prop := x = a ∨ x = { a with pool := true }

/-- At most the access itself joins those that wait. -/
def State.Joined (s : State) (a : Access) (t : State) : Prop :=
  t.cml = s.cml ∧ (t.waitingAccesses = s.waitingAccesses ∨ ∃ x, a.Marked x ∧ t.waitingAccesses = s.waitingAccesses ++ [x])

theorem State.Joined.of_waiting {s t : State} {a : Access} (h : t.waiting = s.waiting) : s.Joined a t :=
  ⟨State.cml_of_waiting h, .inl (congrArg (·.1.filterMap UpReq.access?) h)⟩

theorem State.joined_queueAccess (s : State) {a x : Access} (h : a.Marked x) : s.Joined a (s.queueAccess x) :=
  ⟨rfl, .inr ⟨x, h, List.filterMap_append ..⟩⟩

/-- Bytes merged into a line change no access. -/
theorem mergeLine_accesses {block off : Nat} {bs : List Byte} : ∀ {q q' : List UpReq}, mergeLine block off bs q = some q' →
    q'.filterMap UpReq.access? = q.filterMap UpReq.access?
  | [], _, h => by cases h
  | .line b l :: rest, q', h => by
    unfold mergeLine at h
    split at h
    · cases h; rfl
    · obtain ⟨q, hq, rfl⟩ := Option.map_eq_some_iff.1 h
      exact (mergeLine_accesses hq :)
  | .access a :: rest, q', h => by
    obtain ⟨q, hq, rfl⟩ := Option.map_eq_some_iff.1 h
    exact congrArg (a :: ·) (mergeLine_accesses hq)

theorem Bpu.post_accesses {b b' : Bpu} {a : Access} (h : b.post a = some b') :
    b'.upstream.filterMap UpReq.access? = b.upstream.filterMap UpReq.access? := by
  unfold Bpu.post at h
  split at h
  · next q hq => cases h; exact mergeLine_accesses hq
  · split at h
    · cases h; simp [UpReq.access?]
    · cases h

@[simp] theorem State.showCommand_waiting (s : State) (a : Access) : (s.showCommand a).waiting = s.waiting := by
  unfold State.showCommand State.askPost
  repeat' split
  all_goals simp

theorem State.joined_postWrite (s : State) (a : Access) : s.Joined a (s.postWrite a) := by
  unfold State.postWrite
  split
  · next b hb =>
    have hw : (((s.onBpu fun _ => b).answer a.who true []).showCommand a).waiting = (b.upstream, s.cml) := by
      rw [State.showCommand_waiting, State.answer_waiting]
      rfl
    refine ⟨State.cml_of_waiting hw, .inl ?_⟩
    unfold State.waitingAccesses
    rw [hw]
    exact Bpu.post_accesses hb
  · exact .of_waiting rfl

theorem State.joined_regionWrite (s : State) (a : Access) (i : Nat) (d : Descriptor) : s.Joined a (s.regionWrite a i d) := by
  unfold State.regionWrite
  split
  · exact .of_waiting (s.answerError_waiting a)
  · cases d.kind with
    | plain | command | none => exact s.joined_postWrite a
    | completion | sensor => exact .of_waiting (s.answerError_waiting a)
    | pool => exact s.joined_queueAccess (.inr rfl)
    | unpack => exact s.joined_queueAccess (.inl rfl)
    | pack => exact .of_waiting (s.handPack_waiting a i d)

theorem State.joined_mapAccess (s : State) (a : Access) : s.Joined a (s.mapAccess a) := by
  unfold State.mapAccess
  split
  · split
    · exact s.joined_queueAccess (.inl rfl)
    · split
      · exact s.joined_queueAccess (.inl rfl)
      · exact .of_waiting (s.refuseCommit_waiting ..)
  · exact .of_waiting (s.answerError_waiting a)

theorem State.joined_route (s : State) (a : Access) : s.Joined a (s.route a) := by
  unfold State.route
  split
  · exact s.joined_mapAccess a
  · exact s.joined_regionWrite a _ _
  · exact s.joined_postWrite a
  · split
    · exact .of_waiting (s.handUnpack_waiting ..)
    · exact s.joined_queueAccess (.inl rfl)
  · exact s.joined_queueAccess (.inl rfl)

/-- As an access arrives, at most it joins those that wait for the port. -/
theorem State.joined_arriveAt (s : State) (a : Access) : s.Joined a (s.arriveAt a) := by
  have hw : (s.clearAnswer a.who).waiting = s.waiting := s.clearAnswer_waiting _
  unfold State.arriveAt
  dsimp only
  split
  · exact .of_waiting ((State.answerError_waiting ..).trans hw)
  · split
    · exact .of_waiting hw
    · obtain ⟨hc, hj⟩ := (s.clearAnswer a.who).joined_route a
      refine ⟨hc.trans (State.cml_of_waiting hw), ?_⟩
      rwa [show (s.clearAnswer a.who).waitingAccesses = s.waitingAccesses from
        congrArg (·.1.filterMap UpReq.access?) hw] at hj

/-- An initiator without an access in progress has none among those that wait. -/
theorem State.who_ne_of_not_busy {s : State} {who : Initiator} (h : s.busy who = false) {x : Access}
    (hx : x ∈ s.waitingAccesses) : x.who ≠ who := by
  obtain ⟨r, hr, hrx⟩ := List.mem_filterMap.1 hx
  intro hw
  have hb : s.busy who = true := by
    unfold State.busy
    rw [Bool.or_eq_true, List.any_eq_true, List.any_eq_true]
    exact .inr ⟨r, hr, by rw [hrx]; simpa using hw⟩
  rw [h] at hb
  cases hb

/-- An access granted as it arrives is the only request at place 2. -/
theorem State.waitsAlone_arriveAt {s : State} {a : Access} (hb : s.busy a.who = false)
    (hw : (s.arriveAt a).waitsAlone a.who = true) :
    ∃ x, a.Marked x ∧ (s.arriveAt a).bpu.upstream = [.access x] := by
  unfold State.waitsAlone at hw
  split at hw
  · next x hx =>
    have hwho : x.who = a.who := by simpa using hw
    have hl : (s.arriveAt a).waitingAccesses = [x] := by simp [State.waitingAccesses, State.waiting, hx, UpReq.access?]
    rcases (s.joined_arriveAt a).2 with h | ⟨y, hy, h⟩
    · exact absurd hwho (State.who_ne_of_not_busy hb (by rw [← h, hl]; simp))
    · rw [hl, ← List.nil_append [x]] at h
      obtain ⟨-, rfl⟩ := List.append_inj' h.symm rfl |>.imp id List.singleton_inj.1
      exact ⟨y, hy, hx⟩
  · cases hw

end Sys2Proof.Machine
end

section
/-! What an access writes as it is granted: the bytes it addresses, and the cartridge memory only through a controller reset that
cuts a page write in flight (R148). -/

namespace Sys2Proof.Machine

/-! ### The cartridge memory under a reset -/

/-- The link is not in a transaction that writes a page. -/
def Cml.NoPageWrite (c : Cml) : Prop := ∀ op k rest, c.op = some op → op.steps ≠ .write k :: rest

/-- With no page write in flight the cartridge memory stands, and none begins. -/
def State.KeepsCartridge (s t : State) : Prop :=
  s.cml.NoPageWrite → t.cml.NoPageWrite ∧ t.cartridge = s.cartridge

theorem State.KeepsCartridge.of_eq {s t : State} (hc : t.cml = s.cml) (hm : t.cartridge = s.cartridge) :
    s.KeepsCartridge t := fun hp => ⟨hc ▸ hp, hm⟩

theorem State.KeepsCartridge.of_rest {s t : State} (hw : t.waiting = s.waiting) (hr : t.rest = s.rest) :
    s.KeepsCartridge t := .of_eq (State.cml_of_waiting hw) (State.cartridge_of_rest hr)

theorem State.KeepsCartridge.trans {s t u : State} (h1 : s.KeepsCartridge t) (h2 : t.KeepsCartridge u) :
    s.KeepsCartridge u := fun hp => by
  obtain ⟨hp1, hm1⟩ := h1 hp
  obtain ⟨hp2, hm2⟩ := h2 hp1
  exact ⟨hp2, hm2.trans hm1⟩

theorem State.KeepsCartridge.foldl {α : Type} {g : State → α → State} (h : ∀ (s : State) a, s.KeepsCartridge (g s a)) :
    ∀ (l : List α) (s : State), s.KeepsCartridge (l.foldl g s)
  | [], _ => .of_eq rfl rfl
  | a :: l, s => (h s a).trans (State.KeepsCartridge.foldl h l (g s a))

theorem State.answerAllError_waiting (s : State) : s.answerAllError.waiting = s.waiting := by
  unfold State.answerAllError
  generalize s.bpu.held.map (·.access) ++ s.bpu.upstream.filterMap UpReq.access? = l
  induction l generalizing s with
  | nil => rfl
  | cons a l ih => exact (ih _).trans (s.answerError_waiting a)

/-- R148: no operation is in flight after a reset. -/
theorem State.cutLink_op (s : State) : s.cutLink.cml.op = none := by
  unfold State.cutLink
  split
  · assumption
  · dsimp only
    rw [State.onCml_cml]
    split <;> rfl

theorem State.cutLink_keepsCartridge (s : State) : s.KeepsCartridge s.cutLink := fun hp => by
  have hnone : s.cutLink.cml.NoPageWrite := fun op k rest ho => by
    rw [State.cutLink_op] at ho
    cases ho
  refine ⟨hnone, ?_⟩
  unfold State.cutLink
  split
  · rfl
  · next op ho =>
    dsimp only
    split
    · next k rest hs hw => exact absurd hs (hp op k rest ho)
    · rfl

/-- What a controller reset makes of place 2, of the link and of both memories comes of its first steps. -/
theorem State.controllerReset_memory (s : State) :
    s.controllerReset.bpu.upstream = [] ∧ s.controllerReset.cml = s.answerAllError.drainLines.cutLink.cml
      ∧ s.controllerReset.rest = s.answerAllError.drainLines.cutLink.rest := by
  unfold State.controllerReset
  dsimp only
  split <;> simp [State.judgeAttn]

theorem State.controllerReset_keepsCartridge (s : State) : s.KeepsCartridge s.controllerReset := by
  obtain ⟨-, hcml, hrest⟩ := s.controllerReset_memory
  have hanswered : s.KeepsCartridge s.answerAllError := .of_rest s.answerAllError_waiting s.answerAllError_rest
  have hdrained : s.answerAllError.KeepsCartridge s.answerAllError.drainLines := .of_eq rfl rfl
  exact ((hanswered.trans hdrained).trans (State.cutLink_keepsCartridge _)).trans
    (.of_eq hcml (State.cartridge_of_rest hrest))

theorem State.captureWord_keepsCartridge (s : State) (off : Nat) : s.KeepsCartridge (s.captureWord off) := by
  unfold State.captureWord
  repeat' split
  · exact .of_rest (by simp) (by simp)
  · exact .of_rest (by simp) (by simp)
  · exact .of_rest (by simp) (by simp)
  · exact s.controllerReset_keepsCartridge
  · exact .of_rest rfl rfl

/-! ### Commits -/

theorem State.acceptCommit_rest (s : State) (a : Access) (i : Nat) (b : List Byte) :
    (s.acceptCommit a i b).rest = (s.captureWrite (a.addr - Config.mapPage) a.bytes).rest := by
  unfold State.acceptCommit
  rw [State.reclassify_rest]
  split
  · rw [State.concern_rest, State.concern_rest, State.answer_rest, State.onBpu_rest]
  · rw [State.concern_rest, State.answer_rest, State.onBpu_rest]

theorem State.captureWrite_rest (s : State) (off : Nat) (bs : List Byte) :
    (s.captureWrite off bs).rest = (Memory.writeBytes s.dram (Config.mapPage + off) bs, s.rest.2) := rfl

theorem State.captureWrite_waiting (s : State) (off : Nat) (bs : List Byte) : (s.captureWrite off bs).waiting = s.waiting :=
  rfl

/-- An accepted commit writes its bytes, a refused one nothing. -/
theorem State.commit_rest (s : State) {a : Access} (i : Nat) (hp : Config.mapPage ≤ a.addr) :
    (s.commit a i).rest = s.rest ∨ (s.commit a i).rest = (Memory.writeBytes s.dram a.addr a.bytes, s.rest.2) := by
  unfold State.commit
  split
  · rw [State.acceptCommit_rest, State.captureWrite_rest, Nat.add_sub_cancel' hp]
    exact .inr rfl
  · exact .inl (s.refuseCommit_rest ..)

/-! ### DRAM under an access performed with place 2 empty -/

/-- From a state with place 2 empty DRAM stands, and place 2 stays empty. -/
def State.Still (s t : State) : Prop := s.bpu.upstream = [] → t.bpu.upstream = [] ∧ t.dram = s.dram

theorem State.Still.of_rest {s t : State} (hw : t.waiting = s.waiting) (hr : t.rest = s.rest) : s.Still t := fun hu =>
  ⟨(State.upstream_of_waiting hw).trans hu, State.dram_of_rest hr⟩

theorem State.Still.trans {s t u : State} (h1 : s.Still t) (h2 : t.Still u) : s.Still u := fun hu => by
  obtain ⟨hu1, hd1⟩ := h1 hu
  obtain ⟨hu2, hd2⟩ := h2 hu1
  exact ⟨hu2, hd2.trans hd1⟩

theorem State.Still.foldl {α : Type} {g : State → α → State} (h : ∀ (s : State) a, s.Still (g s a)) :
    ∀ (l : List α) (s : State), s.Still (l.foldl g s)
  | [], _ => .of_rest rfl rfl
  | a :: l, s => (h s a).trans (State.Still.foldl h l (g s a))

theorem State.drainLines_of_empty {s : State} (h : s.bpu.upstream = []) : s.drainLines = s := by
  unfold State.drainLines
  rw [h]
  rfl

theorem State.cutLink_dram (s : State) : s.cutLink.dram = s.dram := by
  unfold State.cutLink
  split
  · rfl
  · dsimp only
    split
    · split <;> rfl
    · rfl

theorem State.still_controllerReset (s : State) : s.Still s.controllerReset := fun hu => by
  obtain ⟨hup, -, hrest⟩ := s.controllerReset_memory
  rw [State.drainLines_of_empty ((State.upstream_of_waiting s.answerAllError_waiting).trans hu)] at hrest
  refine ⟨hup, ?_⟩
  calc s.controllerReset.dram = s.answerAllError.cutLink.dram := State.dram_of_rest hrest
    _ = s.answerAllError.dram := State.cutLink_dram _
    _ = s.dram := State.dram_of_rest s.answerAllError_rest

/-- A captured word writes nothing of itself: only a reset could, and it finds place 2 empty. -/
theorem State.still_captureWord (s : State) (off : Nat) : s.Still (s.captureWord off) := by
  unfold State.captureWord
  repeat' split
  · exact .of_rest (by simp) (by simp)
  · exact .of_rest (by simp) (by simp)
  · exact .of_rest (by simp) (by simp)
  · exact s.still_controllerReset
  · exact .of_rest rfl rfl

/-! ### Accesses performed -/

theorem toLe_length : ∀ n x, (toLe n x).length = n
  | 0, _ => rfl
  | n + 1, x => congrArg (· + 1) (toLe_length n (x / 256))

theorem Access.bytes_length (a : Access) : a.bytes.length = widthBytes a.width := toLe_length _ _

/-- DRAM stands, or the bytes of the access are written. -/
def State.Wrote (s t : State) (a : Access) : Prop :=
  t.dram = s.dram ∨ t.dram = Memory.writeBytes s.dram a.addr a.bytes

theorem State.Wrote.of_rest {s t : State} {a : Access} (h : t.rest = s.rest) : s.Wrote t a := .inl (State.dram_of_rest h)

theorem State.Wrote.outside {s t : State} {a : Access} (h : s.Wrote t a) (hm : s.MemoryOk) (x : Nat)
    (hx : x < a.addr ∨ a.addr + widthBytes a.width ≤ x) : Memory.read t.dram x = Memory.read s.dram x := by
  rcases h with hd | hd
  · rw [hd]
  · rw [hd, Memory.read_writeBytes_outside _ _ x hm.1 (by rwa [a.bytes_length])]

/-- The four words of the map page as a write leaves DRAM, before any of them is captured. -/
def State.wordWrite (s : State) (a : Access) : State :=
  (s.onDram fun m => Memory.writeBytes m a.addr a.bytes).answer a.who true []

theorem State.wordWrite_rest (s : State) (a : Access) :
    (s.wordWrite a).rest = (Memory.writeBytes s.dram a.addr a.bytes, s.rest.2) := State.answer_rest ..

theorem State.wordWrite_waiting (s : State) (a : Access) : (s.wordWrite a).waiting = s.waiting := State.answer_waiting ..

/-- A write to the map page is a write to a descriptor's first bytes, a commit, or a write to the four words, which are captured. -/
theorem State.mapWrite_cases (s : State) (a : Access) (hp : Config.mapPage ≤ a.addr) :
    (s.mapWrite a).rest = (Memory.writeBytes s.dram a.addr a.bytes, s.rest.2) ∧ (s.mapWrite a).waiting = s.waiting
      ∨ (∃ i, s.mapWrite a = s.commit a i)
      ∨ ∃ l : List Nat, s.mapWrite a = l.foldl State.captureWord (s.wordWrite a) := by
  unfold State.mapWrite
  dsimp only
  split
  · split
    · refine .inl ⟨?_, by rw [State.answer_waiting, State.captureWrite_waiting]⟩
      rw [State.answer_rest, State.captureWrite_rest, Nat.add_sub_cancel' hp]
    · exact .inr (.inl ⟨_, rfl⟩)
  · exact .inr (.inr ⟨_, rfl⟩)

theorem State.mapWrite_wrote {s : State} {a : Access} (hu : s.bpu.upstream = []) (hp : Config.mapPage ≤ a.addr) :
    s.Wrote (s.mapWrite a) a := by
  rcases s.mapWrite_cases a hp with ⟨hr, -⟩ | ⟨i, hi⟩ | ⟨l, hl⟩
  · exact .inr (State.dram_of_rest hr)
  · rw [hi]
    exact (s.commit_rest i hp).imp State.dram_of_rest State.dram_of_rest
  · rw [hl]
    have hd := (State.Still.foldl State.still_captureWord l (s.wordWrite a)
      ((State.upstream_of_waiting (s.wordWrite_waiting a)).trans hu)).2
    exact .inr (hd.trans (State.dram_of_rest (s.wordWrite_rest a)))

theorem State.performAccess_wrote {s : State} (a : Access) (hu : s.bpu.upstream = []) : s.Wrote (s.performAccess a) a := by
  unfold State.performAccess
  split
  · exact .of_rest (s.answer_rest ..)
  · split
    · next hp => exact State.mapWrite_wrote hu hp
    · split
      · exact .inr (State.dram_of_rest (s.wordWrite_rest a))
      · exact .of_rest (s.answerError_rest a)

/-- The cartridge memory stands, where no page write is in flight. -/
def State.CartridgeStands (s t : State) : Prop := s.cml.NoPageWrite → t.cartridge = s.cartridge

theorem State.CartridgeStands.of_rest {s t : State} (h : t.rest = s.rest) : s.CartridgeStands t :=
  fun _ => State.cartridge_of_rest h

theorem State.mapWrite_cartridge {s : State} {a : Access} (hp : Config.mapPage ≤ a.addr) :
    s.CartridgeStands (s.mapWrite a) := by
  rcases s.mapWrite_cases a hp with ⟨hr, -⟩ | ⟨i, hi⟩ | ⟨l, hl⟩
  · exact fun _ => State.cartridge_of_rest hr
  · rw [hi]
    rcases s.commit_rest i hp with h | h <;> exact fun _ => State.cartridge_of_rest h
  · rw [hl]
    have hw : s.KeepsCartridge (s.wordWrite a) :=
      .of_eq (State.cml_of_waiting (s.wordWrite_waiting a)) (State.cartridge_of_rest (s.wordWrite_rest a))
    exact fun hn => ((hw.trans (State.KeepsCartridge.foldl State.captureWord_keepsCartridge l _)) hn).2

theorem State.performAccess_cartridge (s : State) (a : Access) : s.CartridgeStands (s.performAccess a) := by
  unfold State.performAccess
  split
  · exact .of_rest (s.answer_rest ..)
  · split
    · next hp => exact State.mapWrite_cartridge hp
    · split
      · exact fun _ => State.cartridge_of_rest (s.wordWrite_rest a)
      · exact .of_rest (s.answerError_rest a)

/-! ### Grants and the cartridge memory -/

/-- The cartridge memory is out of the reach of everything but a reset: it stands by the equations of the memories. -/
theorem State.CartridgeStands.of_eq {s t : State} (h : t.rest.2.1 = s.rest.2.1) : s.CartridgeStands t := fun _ => h

theorem State.doUpstream_cartridge (s : State) : s.CartridgeStands s.doUpstream := by
  unfold State.doUpstream
  split
  · exact .of_rest rfl
  · split
    · exact .of_eq (by simp)
    · exact fun hn => State.performAccess_cartridge _ _ hn

theorem State.writeRecord_cartridge (s : State) : s.writeRecord.rest.2.1 = s.rest.2.1 := by
  unfold State.writeRecord
  dsimp only
  repeat' split
  · rw [State.onCw_rest]
  · rw [State.onCw_rest]
  · rw [State.askStatus_rest, State.onCw_rest, State.free_rest, State.onDram_rest, State.onCw_rest]

theorem State.writeStatus_cartridge (s : State) : s.writeStatus.rest.2.1 = s.rest.2.1 := by
  unfold State.writeStatus
  dsimp only
  simp

theorem State.writeSensor_cartridge (s : State) (i : Nat) (bytes : List Byte) :
    (s.writeSensor i bytes).rest.2.1 = s.rest.2.1 := by
  unfold State.writeSensor
  dsimp only
  split <;> simp

theorem State.clearPostWord_cartridge (s : State) (a : Nat) (bytes : List Byte) :
    (s.clearPostWord a bytes).rest.2.1 = s.rest.2.1 := by
  unfold State.clearPostWord
  simp

theorem State.zeroWord_cartridge (s : State) (off : Nat) : s.CartridgeStands (s.doRing (.zeroWord off)) := by
  intro hn
  have hc := (State.captureWord_keepsCartridge (s.onDram fun m => Memory.writeBytes m (Config.mapPage + off) (zeros 4)) off
    hn).2
  unfold State.doRing
  dsimp only
  split <;> exact hc

theorem State.doRing_cartridge (s : State) (r : RingReq) : s.CartridgeStands (s.doRing r) := by
  cases r with
  | zeroDescriptor i => exact .of_eq (by rw [State.doRing, State.rewritten_rest, State.captureWrite_rest])
  | zeroWord off => exact s.zeroWord_cartridge off
  | completion => exact .of_eq s.writeRecord_cartridge
  | status => exact .of_eq s.writeStatus_cartridge
  | sensor i bytes => exact .of_eq (s.writeSensor_cartridge i bytes)
  | clearPost a bytes => exact .of_eq (s.clearPostWord_cartridge a bytes)
  | readPost => exact .of_rest s.readPostWord_rest
  | readSlot => exact .of_rest s.takeSlot_rest

theorem State.doTteWork_cartridge (s : State) (w : TteWork) : (s.doTteWork w).rest.2.1 = s.rest.2.1 := by
  unfold State.doTteWork
  split
  · rw [State.onTte_rest]
  · rw [State.onRead_rest, State.onTte_rest, State.onDram_rest]

theorem State.doPackWork_cartridge (s : State) (w : PackWork) : (s.doPackWork w).rest.2.1 = s.rest.2.1 := by
  cases w
  · simp only [State.doPackWork, State.sealStep]
    repeat' split
    all_goals simp
  · simp only [State.doPackWork, State.placeBytes]
    repeat' split
    all_goals simp
  · simp [State.doPackWork, State.placeEntry]

theorem State.serve_cartridge (s : State) (r : Requester) : s.CartridgeStands (s.serve r) := by
  cases r with
  | tte =>
    refine .of_eq ?_
    cases h : s.tteWork with
    | none => simp [State.serve, h]
    | some w => simpa [State.serve, h] using s.doTteWork_cartridge w
  | upstream => exact s.doUpstream_cartridge
  | pack =>
    refine .of_eq ?_
    cases h : s.packWork with
    | none => simp [State.serve, h]
    | some w => simpa [State.serve, h] using s.doPackWork_cartridge w
  | unpack =>
    refine .of_eq ?_
    cases h : s.unpackWork <;> simp [State.serve, h]
  | ring =>
    show s.CartridgeStands s.doOldestRing
    unfold State.doOldestRing
    split
    · exact .of_rest rfl
    · exact fun hn => State.doRing_cartridge _ _ hn

theorem State.grant_cartridge (s : State) (r : Requester) : s.CartridgeStands (s.grant r) :=
  (s.countGrant r).serve_cartridge r

/-! ### An access in the step in which it arrives -/

/-- With an access the only request at place 2, a grant to it performs it. -/
theorem State.grant_upstream_access {s : State} {x : Access} (hu : s.bpu.upstream = [.access x]) :
    s.grant .upstream = ((s.countGrant .upstream).onBpu fun b => { b with upstream := [] }).performAccess x := by
  show (s.countGrant .upstream).doUpstream = _
  unfold State.doUpstream
  rw [show (s.countGrant .upstream).bpu.upstream = [.access x] from hu]

theorem State.grantAtOnce_wrote {s : State} (a : Access) (hb : s.busy a.who = false) :
    s.Wrote ((s.arriveAt a).grantAtOnce a) a := by
  have hr := s.arriveAt_rest a
  unfold State.grantAtOnce
  split
  · next h =>
    obtain ⟨x, hx, hu⟩ := State.waitsAlone_arriveAt hb h.1
    obtain ⟨haddr, hbytes⟩ : x.addr = a.addr ∧ x.bytes = a.bytes := by rcases hx with rfl | rfl <;> exact ⟨rfl, rfl⟩
    have hd := State.performAccess_wrote
      (s := ((s.arriveAt a).countGrant .upstream).onBpu fun b => { b with upstream := [] }) x rfl
    unfold State.Wrote at hd ⊢
    rw [State.grant_upstream_access hu, ← haddr, ← hbytes]
    rwa [show (((s.arriveAt a).countGrant .upstream).onBpu fun b => { b with upstream := [] }).dram = s.dram from
      State.dram_of_rest hr] at hd
  · exact .of_rest hr

/-- An access writes at most the bytes it addresses in the step in which it arrives. -/
theorem State.arrive_wrote (s : State) (a : Access) : s.Wrote (s.arrive a) a := by
  unfold State.arrive
  split
  · exact .of_rest rfl
  · next hb =>
    have h := s.grantAtOnce_wrote a (by simpa using hb)
    unfold State.Wrote at h ⊢
    rwa [show (((s.arriveAt a).grantAtOnce a).finish).dram = _ from State.dram_of_rest (State.finish_rest _)]

theorem State.arrive_cartridge (s : State) (a : Access) : s.CartridgeStands (s.arrive a) := by
  intro hn
  have hc : (s.arriveAt a).cml = s.cml := (s.joined_arriveAt a).1
  have hr := State.cartridge_of_rest (s.arriveAt_rest a)
  unfold State.arrive
  split
  · rfl
  · refine (State.cartridge_of_rest (State.finish_rest _)).trans ?_
    unfold State.grantAtOnce
    split
    · exact (State.grant_cartridge _ _ (hc ▸ hn)).trans hr
    · exact hr

/-- A read writes nothing. -/
theorem State.arrive_read_rest (s : State) {a : Access} (hw : a.write = false) : (s.arrive a).rest = s.rest := by
  unfold State.arrive
  split
  · rfl
  · next hb =>
    rw [State.finish_rest]
    unfold State.grantAtOnce
    split
    · next h =>
      obtain ⟨x, hx, hu⟩ := State.waitsAlone_arriveAt (by simpa using hb) h.1
      have hxw : x.write = false := by rcases hx with rfl | rfl <;> exact hw
      rw [State.grant_upstream_access hu]
      unfold State.performAccess
      rw [hxw]
      exact (State.answer_rest ..).trans (s.arriveAt_rest a)
    · exact s.arriveAt_rest a

end Sys2Proof.Machine
end

section
/-! Every row leaves the queue and keeps the invariant; which bytes of both memories each row leaves; O5 to O8. -/

namespace Sys2Proof.Machine

/-! ### The rows that write DRAM without a grant -/

theorem stampHeader_length (old : List Byte) (p : TapePos) (copy : Nat) : (stampHeader old p copy).length ≤ 64 := by
  simp only [stampHeader, List.length_append, List.length_take, List.length_drop, toLe_length]
  omega

section
variable (s : State)

theorem State.moveSlot_bpu (i : Nat) (old new : SlotState) (f : Slot → Slot) : (s.moveSlot i old new f).bpu = s.bpu := by
  unfold State.moveSlot
  split <;> rfl

/-- Arming writes the header of its slot and nothing else (R66). -/
theorem State.armHead_rest (i : Nat) (p : TapePos) :
    ∃ bytes : List Byte, bytes.length ≤ 64 ∧
      (s.armHead i p).rest = (Memory.writeBytes s.dram (s.slotBase i) bytes, s.rest.2) := by
  have hbase : (s.moveSlot i .sealed .writing fun x => { x with pos := some p }).slotBase i = s.slotBase i := by
    unfold State.slotBase State.region
    rw [State.moveSlot_bpu]
  have hrest := s.moveSlot_rest i .sealed .writing fun x => { x with pos := some p }
  refine ⟨_, stampHeader_length (Memory.readBytes s.dram (s.slotBase i) Config.headerSize) p
    (((s.moveSlot i .sealed .writing fun x => { x with pos := some p }).slotAt i).copy.getD 0), ?_⟩
  unfold State.armHead State.stampSlot
  dsimp only
  rw [State.evaluate_rest, State.onRg_rest, State.onMc_rest, State.onTte_rest, State.onDram_rest, hbase,
    State.dram_of_rest hrest, hrest]
  rfl

/-- What ARM_STRIPE writes: nothing, or the header of the head of the write queue. -/
def State.ArmWrote (e : State) : Prop :=
  e.rest = s.rest ∨ ∃ i bytes, s.spm.head = some i ∧ List.length (α := Byte) bytes ≤ 64
    ∧ e.rest = (Memory.writeBytes s.dram (s.slotBase i) bytes, s.rest.2)

theorem State.arming_of_mayArm {s : State} (h : s.mayArm = true) : s.spm.direction = .writeOpen := by
  unfold State.mayArm State.arming at h
  simp only [Bool.and_eq_true, beq_iff_eq] at h
  obtain ⟨⟨⟨⟨-, hopen, -⟩, -⟩, -⟩, -⟩ := h
  exact hopen

theorem answers_armStripe : Answers s (fun e => s.KeepsQueue e ∧ s.ArmWrote e) (execArmStripe s) := by
  have of_rest {e : State} (hi : s.Inv → e.Inv) (hr : e.rest = s.rest) : s.KeepsQueue e ∧ s.ArmWrote e :=
    ⟨⟨hi, State.pending_of_rest hr⟩, .inl hr⟩
  unfold execArmStripe
  split
  · exact .unchanged
  · next p _ =>
    split
    · exact .unchanged
    · next hmay =>
      split
      · split
        · next i hhead =>
          split
          · obtain ⟨bytes, hlen, hr⟩ := s.armHead_rest i p
            exact .done ⟨⟨State.armHead_inv s i p, State.pending_of_rest hr⟩, .inr ⟨i, bytes, hhead, hlen, hr⟩⟩
          · exact .unchanged
        · exact .unchanged
      · split
        · exact .done (of_rest (State.writeTurn_inv s p) (s.writeTurn_rest p))
        · have hopen := State.arming_of_mayArm (by simpa using hmay)
          exact .ite (of_rest (fun hi => State.mediaEnd_inv s hi hopen) s.mediaEnd_rest)

/-- What RECEPTION_REPORT writes: nothing, or the bytes still in the FIFO, behind those the port has stored. -/
def State.ReportWrote (e : State) : Prop :=
  e.rest = s.rest ∨ ∃ x, s.tte.read.bind (·.reception) = some x ∧
    e.rest = (Memory.writeBytes s.dram (s.slotBase x.slot + x.stored) (s.tte.fifo.take (Config.stripeSize - x.stored)),
      s.rest.2)

theorem answers_receptionReport (pass mark : Nat) (blank headerValid : Bool) (counts : Counts) :
    Answers s (fun e => s.KeepsQueue e ∧ s.ReportWrote e) (execReceptionReport pass mark blank headerValid counts s) := by
  unfold execReceptionReport
  split
  · next r x _ hx =>
    refine .ite ⟨⟨fun hi => State.rule_inv _ _ _ _ (State.storeRest_inv s x hi), ?_⟩, .inr ⟨x, hx, ?_⟩⟩
    · exact State.pending_of_rest ((State.rule_rest ..).trans (s.storeRest_rest x))
    · exact (State.rule_rest ..).trans (s.storeRest_rest x)
  · exact .unchanged

/-! ### The grant -/

/-- The grant stops beyond DRAM; else the channel's bytes have moved and the requester chosen, if one waits, has its transfer. -/
theorem execDramPortGrant_eq (flow : ChannelFlow) :
    execDramPortGrant flow s =
      match (s.channelFlow flow).choice with
      | some r =>
        if Config.dramSize < (s.channelFlow flow).reach r then .fault .dramOutOfRange
        else .next ((s.channelFlow flow).grant r).finish
      | none => .next (s.channelFlow flow).finish := by
  unfold execDramPortGrant
  dsimp only
  cases (s.channelFlow flow).choice <;> rfl

/-- The bytes that the channel takes or delivers move no more than the Tape Transfer Engine's state. -/
theorem State.channelFlow_waiting (flow : ChannelFlow) : (s.channelFlow flow).waiting = s.waiting := by
  cases flow with
  | quiet => rfl
  | taken n =>
    simp only [State.channelFlow, State.channelTakes]
    repeat' split
    all_goals rfl
  | delivered bytes =>
    simp only [State.channelFlow, State.channelDelivers, State.onRead]
    repeat' split
    all_goals rfl

/-- A grant that does not stop the machine ends what follows of an effect that keeps the invariant and the queue, and without a
page write the cartridge memory. -/
theorem grant_next {flow : ChannelFlow} {t : State} (h : execDramPortGrant flow s = .next t) :
    ∃ e, t = e.finish ∧ s.KeepsQueue e ∧ s.CartridgeStands e := by
  have hflow := s.channelFlow_rest flow
  rw [execDramPortGrant_eq] at h
  split at h
  · next r _ =>
    split at h
    · cases h
    · cases h
      refine ⟨_, rfl, ⟨fun hi => State.grant_inv _ r (State.channelFlow_inv s flow hi), ?_⟩, fun hn => ?_⟩
      · exact (State.grant_queue _ r).trans (State.pending_of_rest hflow)
      · have hcml := State.cml_of_waiting (s.channelFlow_waiting flow)
        exact ((s.channelFlow flow).grant_cartridge r (hcml ▸ hn)).trans (State.cartridge_of_rest hflow)
  · cases h
    exact ⟨_, rfl, ⟨State.channelFlow_inv s flow, State.pending_of_rest hflow⟩, .of_rest hflow⟩

end

/-! ### Every row -/

/-- The rows that may write a memory: both resets, the cartridge and its link, accesses and grants, and the two that put bytes into
a slot. -/
def writesMemory : Instr → Bool
  | .powerOnReset .. | .cartridgeInserted .. | .cartridgeRemoval | .i2cTransactionDone .. | .resetWordWrite ..
  | .descriptorWrite .. | .descriptorCommit .. | .completionHeadWrite .. | .sensorHeadWrite .. | .attentionMaskWrite ..
  | .upstreamWrite .. | .commandPost .. | .poolWrite .. | .packWrite .. | .unpackRead .. | .dramPortGrant .. | .armStripe
  | .receptionReport .. => true
  | _ => false

theorem exec_keepsRest (s : State) {c : Instr} (hc : writesMemory c = false) : Answers s s.KeepsRest (exec c s) := by
  cases c with
  | powerOnReset | cartridgeInserted | cartridgeRemoval | i2cTransactionDone | resetWordWrite | descriptorWrite
  | descriptorCommit | completionHeadWrite | sensorHeadWrite | attentionMaskWrite | upstreamWrite | commandPost | poolWrite
  | packWrite | unpackRead | dramPortGrant | armStripe | receptionReport => cases hc
  | setPool | setCompression | setSealInterval | sensorPlan | setHealth | queryHealth | loopback | load | unload | rewind
  | locate | locateEod | space | openWrite | streamRecord | writeMark | flush | openRead | deliverRecord | close | abort =>
    exact answers_command s _ _ _
  | holdLimitExpiry who => exact answers_holdLimitExpiry s who
  | loopbackReport header counts => exact answers_loopbackReport s header counts
  | i2cRetryWaitExpiry => exact answers_i2cRetryWaitExpiry s
  | servoLock => exact answers_servoLock s
  | leaderNotCaptured tapeInPath => exact answers_leaderNotCaptured s tapeInPath
  | threadTimeout tapeInPath => exact answers_threadTimeout s tapeInPath
  | tensionUp => exact answers_tensionUp s
  | tensionFault => exact answers_tensionFault s
  | speedFault => exact answers_speedFault s
  | markEvent wait => exact answers_markEvent s wait
  | runOnEnd => exact answers_runOnEnd s
  | wearStep => exact answers_wearStep s
  | turnaroundDone => exact answers_turnaroundDone s
  | repositionReady => exact answers_repositionReady s
  | governorStart => exact answers_governorStart s
  | readAheadResume => exact answers_readAheadResume s
  | unthreadDone => exact answers_unthreadDone s
  | leaderHome => exact answers_leaderHome s
  | recoveryTensionTimeout => exact answers_recoveryTensionTimeout s
  | sequenceStart => exact answers_sequenceStart s
  | conversionDone raw => exact answers_conversionDone s raw
  | coderTakeBytes n => exact answers_coderTakeBytes s n
  | fillingSlotTaken => exact answers_fillingSlotTaken s
  | sealTimerExpiry => exact answers_sealTimerExpiry s
  | transferCountTermination => exact answers_transferCountTermination s
  | channelStarvation => exact answers_channelStarvation s
  | verifyReport mark header counts => exact answers_verifyReport s mark header counts
  | readPositionStart => exact answers_readPositionStart s
  | receptionOverrun => exact answers_receptionOverrun s
  | retryStart => exact answers_retryStart s
  | deliverySlotTaken => exact answers_deliverySlotTaken s
  | decodeStep => exact answers_decodeStep s
  | handover => exact answers_handover s
  | headerReport pass mark blank header entryFlags => exact answers_headerReport s pass mark blank header entryFlags
  | tapeStopped => exact answers_tapeStopped s

/-- Power-on leaves DRAM and the queue, and what it leaves else meets the invariant (R180). -/
theorem powerOn_keeps (s : State) (present tapeInPath protected_ : Bool) (mem : List Host.Cell) :
    ∃ t, exec (.powerOnReset present tapeInPath protected_ mem) s = .next t ∧ s.KeepsQueue t ∧ t.dram = s.dram := by
  refine ⟨_, rfl, ⟨fun hi => ?_, rfl⟩, rfl⟩
  exact ⟨⟨hi.1.1, Memory.wf_ofCells _ _⟩, by simp [Ci.Numbered, State.powerOn, Ci.reset], Nat.zero_le _, Nat.zero_le _,
    Nat.zero_le _, Nat.zero_le _, Spm.fits_of_free (by simp [State.powerOn])⟩

/-- Every row but DRAM_PORT_GRANT and power-on answers the state as it stood or what follows of an effect that keeps the invariant
and the queue. -/
theorem exec_answers (s : State) (c : Instr) (hg : ∀ flow, c ≠ .dramPortGrant flow)
    (hp : ∀ a b d mem, c ≠ .powerOnReset a b d mem) : Answers s s.KeepsQueue (exec c s) := by
  cases c with
  | dramPortGrant flow => exact absurd rfl (hg flow)
  | powerOnReset a b d mem => exact absurd rfl (hp a b d mem)
  | resetWordWrite | descriptorWrite | descriptorCommit | completionHeadWrite | sensorHeadWrite | attentionMaskWrite
  | upstreamWrite | commandPost | poolWrite | packWrite | unpackRead => exact answers_arrive_keepsQueue s _
  | cartridgeInserted protected_ mem => exact (answers_cartridgeInserted s protected_ mem).mono fun _ h => h.1
  | cartridgeRemoval => exact (answers_cartridgeRemoval s).mono fun _ h => h.1
  | i2cTransactionDone z => exact (answers_i2cTransactionDone s z).mono fun _ h => h.1
  | armStripe => exact (answers_armStripe s).mono fun _ h => h.1
  | receptionReport => exact (answers_receptionReport s _ _ _ _ _).mono fun _ h => h.1
  | _ => exact (exec_keepsRest s rfl).mono fun _ => State.KeepsRest.keepsQueue

theorem State.KeepsQueue.finish {s e : State} (h : s.KeepsQueue e) : s.KeepsQueue e.finish :=
  ⟨fun hi => State.finish_inv e (h.1 hi), e.finish_pending.trans h.2⟩

/-- What a row answers keeps the invariant and the queue. -/
theorem exec_keepsQueue {s t : State} {c : Instr} (h : exec c s = .next t) : s.KeepsQueue t := by
  by_cases hg : ∃ flow, c = .dramPortGrant flow
  · obtain ⟨flow, rfl⟩ := hg
    obtain ⟨e, rfl, he, -⟩ := grant_next s h
    exact he.finish
  · by_cases hp : ∃ a b d mem, c = .powerOnReset a b d mem
    · obtain ⟨a, b, d, mem, rfl⟩ := hp
      obtain ⟨t', ht', hk, -⟩ := powerOn_keeps s a b d mem
      rw [ht'] at h
      cases h
      exact hk
    · obtain rfl | ⟨e, he, rfl⟩ := (exec_answers s c (fun flow hc => hg ⟨flow, hc⟩)
        fun a b d mem hc => hp ⟨a, b, d, mem, hc⟩).of_eq_next h
      · exact ⟨id, rfl⟩
      · exact he.finish

/-- Settles O5: the row at the front of the queue keeps the invariant, and so does a tick. -/
theorem everyStepKeepsTheInvariant : Obligations.EveryStepKeepsTheInvariant := by
  intro s t hi h
  unfold step at h
  split at h
  · exact (exec_keepsQueue h).1 hi
  · cases h
    exact State.elapse_inv s 1 hi

/-- Settles O6: the queue stands under every row's effect and under what follows of it. -/
theorem commandsLeaveTheQueue : Obligations.CommandsLeaveTheQueue := fun _ _ _ h => (exec_keepsQueue h).2

/-- Settles O8: every other row answers `s` or the end of an effect; the grant stops on its reach alone. -/
theorem onlyAGrantCanStop : Obligations.OnlyAGrantCanStop := by
  refine ⟨fun c s hg => ?_, fun flow s => execDramPortGrant_eq s flow⟩
  by_cases hp : ∃ a b d mem, c = .powerOnReset a b d mem
  · obtain ⟨a, b, d, mem, rfl⟩ := hp
    obtain ⟨t, ht, -⟩ := powerOn_keeps s a b d mem
    exact ⟨t, ht⟩
  · exact (exec_answers s c hg fun a b d mem hc => hp ⟨a, b, d, mem, hc⟩).exists_next

/-! ### Which bytes each row leaves -/

/-- Both memories after the end of an effect are those after the effect. -/
theorem Answers.memory {s t : State} {P : State → Prop} {o : RowOutcome} (h : Answers s P o) (ho : o = .next t) :
    t = s ∨ ∃ e, P e ∧ t.rest = e.rest := by
  obtain rfl | ⟨e, he, rfl⟩ := h.of_eq_next ho
  · exact .inl rfl
  · exact .inr ⟨e, he, e.finish_rest⟩

theorem Answers.rest_eq {s t : State} {o : RowOutcome} (h : Answers s s.KeepsRest o) (ho : o = .next t) :
    t.rest = s.rest := by
  obtain rfl | ⟨e, he, ht⟩ := h.memory ho
  · rfl
  · exact ht.trans he.2

theorem Answers.dram_eq {s t : State} {o : RowOutcome} (h : Answers s (fun e => s.KeepsQueue e ∧ e.dram = s.dram) o)
    (ho : o = .next t) : t.dram = s.dram := by
  obtain rfl | ⟨e, he, ht⟩ := h.memory ho
  · rfl
  · exact (State.dram_of_rest ht).trans he.2

/-- Bytes outside a block that may have been written. -/
theorem read_outside {s t : State} {low n : Nat} {bytes : List Byte} (hm : s.MemoryOk) (hlen : bytes.length ≤ n)
    (hr : t.rest = (Memory.writeBytes s.dram low bytes, s.rest.2)) {a : Nat} (ha : a < low ∨ low + n ≤ a) :
    Memory.read t.dram a = Memory.read s.dram a := by
  rw [State.dram_of_rest hr]
  exact Memory.read_writeBytes_outside bytes low a hm.1 (by omega)

/-- The bytes that an access does not address, and the cartridge memory without a page write in flight. -/
theorem arrive_leaves {s t : State} {a : Access} (h : (.next (s.arrive a) : RowOutcome) = .next t) :
    (s.MemoryOk → ∀ x, x < a.addr ∨ a.addr + widthBytes a.width ≤ x → Memory.read t.dram x = Memory.read s.dram x)
      ∧ ((∀ op k rest, s.cml.op = some op → op.steps ≠ .write k :: rest) →
          ∀ x, Memory.read t.cartridge x = Memory.read s.cartridge x) := by
  cases h
  exact ⟨fun hm x hx => (s.arrive_wrote a).outside hm x hx, fun hn x => by rw [s.arrive_cartridge a hn]⟩

/-- Settles O7: by what each kind of row can have written. -/
theorem rowsThatLeaveMemory : Obligations.RowsThatLeaveMemory := by
  intro c s t h
  dsimp only
  cases c with
  | powerOnReset a b d mem =>
    obtain ⟨t', ht', -, hd⟩ := powerOn_keeps s a b d mem
    rw [ht'] at h
    cases h
    exact fun x => by rw [hd]
  | cartridgeInserted protected_ mem =>
    exact fun x => by rw [(answers_cartridgeInserted s protected_ mem).dram_eq h]
  | cartridgeRemoval => exact fun x => by rw [(answers_cartridgeRemoval s).dram_eq h]
  | i2cTransactionDone z => exact fun x => by rw [(answers_i2cTransactionDone s z).dram_eq h]
  | resetWordWrite | descriptorWrite | descriptorCommit | completionHeadWrite | sensorHeadWrite | attentionMaskWrite
  | upstreamWrite | commandPost | poolWrite | packWrite => exact arrive_leaves h
  | dramPortGrant flow =>
    obtain ⟨e, rfl, -, hc⟩ := grant_next s h
    exact fun hn x => by rw [State.cartridge_of_rest e.finish_rest]; exact congrArg (Memory.read · x) (hc hn)
  | armStripe =>
    obtain rfl | ⟨e, ⟨-, he⟩, ht⟩ := (answers_armStripe s).memory h
    · exact ⟨fun _ _ _ => rfl, fun _ => rfl⟩
    · rcases he with he | ⟨i, bytes, hhead, hlen, he⟩
      · rw [State.dram_of_rest (ht.trans he), State.cartridge_of_rest (ht.trans he)]
        exact ⟨fun _ _ _ => rfl, fun _ => rfl⟩
      · rw [State.cartridge_of_rest (ht.trans he)]
        exact ⟨fun hm a ha => read_outside hm hlen (ht.trans he) (ha i hhead), fun _ => rfl⟩
  | receptionReport pass mark blank headerValid counts =>
    obtain rfl | ⟨e, ⟨-, he⟩, ht⟩ := (answers_receptionReport s pass mark blank headerValid counts).memory h
    · exact ⟨fun _ _ _ => rfl, fun _ => rfl⟩
    · rcases he with he | ⟨x, hx, he⟩
      · rw [State.dram_of_rest (ht.trans he), State.cartridge_of_rest (ht.trans he)]
        exact ⟨fun _ _ _ => rfl, fun _ => rfl⟩
      · rw [State.cartridge_of_rest (ht.trans he)]
        refine ⟨fun hm a ha => read_outside hm ?_ (ht.trans he) (ha x hx), fun _ => rfl⟩
        simp only [List.length_take, Config.stripeSize]
        omega
  | unpackRead who addr w =>
    have hr : t.rest = s.rest := by
      cases h
      exact s.arrive_read_rest rfl
    exact ⟨fun x => by rw [State.dram_of_rest hr]; rfl, fun x => by rw [State.cartridge_of_rest hr]; rfl⟩
  | _ =>
    have hr : t.rest = s.rest := (exec_keepsRest s rfl).rest_eq h
    exact ⟨fun x => by rw [State.dram_of_rest hr]; rfl, fun x => by rw [State.cartridge_of_rest hr]; rfl⟩

end Sys2Proof.Machine
end

section
/-! The step, the tick and the state after reset: O1 to O4. -/

namespace Sys2Proof.Machine

/-- Settles O1: the step takes the front command off the queue and runs it. -/
theorem stepRunsTheFrontCommand : Obligations.StepRunsTheFrontCommand := fun _ _ _ => rfl

/-- Settles O2: the empty queue's step is one tick of `State.elapse`. -/
theorem emptyQueueTicks : Obligations.EmptyQueueTicks := by
  intro s hq
  have htick : step s = .next (s.elapse 1) := by
    unfold step
    rw [hq]
  exact htick

/-- Settles O3, block by block. -/
theorem resetLeaves : Obligations.ResetLeaves :=
  ⟨⟨rfl, rfl, rfl⟩, ⟨rfl, rfl, rfl, rfl, rfl, rfl, rfl, rfl, rfl⟩, ⟨rfl, rfl, rfl, rfl, rfl, rfl, rfl⟩, ⟨rfl, rfl, rfl, rfl⟩,
    ⟨rfl, rfl, rfl, rfl, rfl, rfl⟩, ⟨rfl, rfl, rfl, rfl, rfl, rfl, rfl, rfl⟩, ⟨rfl, rfl, rfl, rfl⟩,
    ⟨rfl, rfl, rfl, rfl, rfl, rfl, rfl, rfl⟩, ⟨rfl, rfl, rfl, rfl⟩, ⟨rfl, rfl, rfl⟩, rfl, rfl, rfl, rfl, rfl, rfl, rfl⟩

/-- Both memories are empty, no command is outstanding and no slot is laid out. -/
theorem reset_inv : State.reset.Inv :=
  ⟨⟨rfl, rfl⟩, by simp [Ci.Numbered, State.reset, State.powerOn, Ci.reset], Nat.zero_le _, Nat.zero_le _, Nat.zero_le _,
    Nat.zero_le _, Spm.fits_of_free (by simp [State.reset, State.powerOn])⟩

/-- Settles O4: index 0 stands in GOOD, and no reaction finds its condition in the reset state. -/
theorem resetMeetsTheInvariant : Obligations.ResetMeetsTheInvariant :=
  ⟨reset_inv, ⟨by decide, rfl⟩, rfl⟩

end Sys2Proof.Machine
end

section
/-! What a sensor plan that passes R155's checks has, and O12 from it. -/

namespace Sys2Proof.Machine

theorem mem_maskInputs {m : BitVec 16} {i : Nat} : i ∈ maskInputs m ↔ i < 12 ∧ m.getLsbD i = true := by
  simp [maskInputs]

theorem maskInputs_pairwise (m : BitVec 16) : (maskInputs m).Pairwise (· < ·) := List.pairwise_lt_range.filter _

/-- A number below a power of two has no bit from the exponent on. -/
theorem getLsbD_of_lt {w k n : Nat} {x : BitVec w} (hx : x.toNat < 2 ^ n) (hk : n ≤ k) : x.getLsbD k = false :=
  Nat.testBit_lt_two_pow (hx.trans_le (Nat.pow_le_pow_right (by decide) hk))

/-- A mask that names no input from 12 on names exactly its bits. -/
theorem mem_maskInputs_of_lt {m : BitVec 16} (hm : m.toNat < 4096) {i : Nat} : i ∈ maskInputs m ↔ m.getLsbD i = true := by
  rw [mem_maskInputs, and_iff_right_iff_imp]
  intro hi
  by_contra hlt
  rw [getLsbD_of_lt (n := 12) hm (by omega)] at hi
  cases hi

/-- A list of R155: its length is in range and every used entry is an input. -/
theorem listOk_iff {n : BitVec 8} {l : List Byte} (hl : l.length = 8) :
    listOk n (usedEntries n l) = true ↔
      (usedEntries n l).length = n.toNat ∧ 1 ≤ n.toNat ∧ n.toNat ≤ 8 ∧ ∀ i ∈ usedEntries n l, i ≤ 11 := by
  have hlen : (usedEntries n l).length = min n.toNat 8 := by simp [usedEntries, hl]
  simp only [listOk, Bool.and_eq_true, decide_eq_true_eq, List.all_eq_true, hlen]
  constructor
  · rintro ⟨⟨h1, h8⟩, hall⟩
    exact ⟨by omega, h1, h8, hall⟩
  · rintro ⟨-, h1, h8, hall⟩
    exact ⟨⟨h1, h8⟩, hall⟩

/-- The checks of R155 that a plan with these arguments has passed. -/
structure PlanChecks (threaded : Bool) (p : PlanArgs) : Prop where
  listA : listOk p.lengthA (usedEntries p.lengthA p.listA) = true
  listB : bitOf p.flags 0 = true → listOk p.lengthB (usedEntries p.lengthB p.listB) = true
  scan : p.scanMask.toNat < 4096
  room : p.scanMask ≠ 0 → 3 ≤ (usedEntries p.lengthA p.listA).length
  period : p.period ≠ 0 ∧ p.period.toNat ≤ 100
  batch : p.batch ≠ 0 ∧ p.batch.toNat ≤ 8
  even : bitOf p.flags 0 = true → p.batch.toNat % 2 = 0
  format : p.formatMask.toNat < 4096
  flags : p.flags.toNat < 2
  tension : threaded = true → (usedEntries p.lengthA p.listA).take 2 = [2, 3]

/-- The plan that arguments spell once they pass. -/
def planSpelled (p : PlanArgs) : Plan :=
  { listA := usedEntries p.lengthA p.listA
    listB := if bitOf p.flags 0 then usedEntries p.lengthB p.listB else []
    scan := maskInputs p.scanMask, alternate := bitOf p.flags 0, period := p.period.toNat, batch := p.batch.toNat
    signed := maskInputs p.formatMask }

theorem planOf_eq_some {threaded : Bool} {p : PlanArgs} {plan : Plan} (h : planOf threaded p = some plan) :
    PlanChecks threaded p ∧ plan = planSpelled p := by
  unfold planOf at h
  dsimp only at h
  split at h; · cases h
  next hA =>
  split at h; · cases h
  next hB =>
  split at h; · cases h
  next hscan =>
  split at h; · cases h
  next hperiod =>
  split at h; · cases h
  next heven =>
  split at h; · cases h
  next hformat =>
  split at h; · cases h
  next htension =>
  cases h
  simp only [Bool.not_eq_true', Bool.not_eq_false, Bool.and_eq_true, Bool.or_eq_true, decide_eq_true_eq, bne_iff_ne, not_and, not_or,
    not_le, not_lt, beq_iff_eq, ne_eq, not_not] at hA hB hscan hperiod heven hformat htension
  obtain ⟨hscan, hroom⟩ := hscan
  obtain ⟨hp0, hp, hb0, hb⟩ := hperiod
  obtain ⟨hformat, hflags⟩ := hformat
  exact ⟨⟨hA, hB, hscan, hroom, ⟨hp0, hp⟩, ⟨hb0, hb⟩, fun h => by have := heven h; omega, hformat, hflags, htension⟩, rfl⟩

/-- Settles O12: the plan is the one its arguments spell, and each check gives its part. -/
theorem acceptedPlansPassTheChecks : Obligations.AcceptedPlansPassTheChecks := by
  intro threaded p plan hok h
  obtain ⟨hc, rfl⟩ := planOf_eq_some h
  have hlen : p.listA.length = 8 ∧ p.listB.length = 8 := by simpa [PlanArgs.ok] using hok
  obtain ⟨hA, h1, h8, hin⟩ := (listOk_iff hlen.1).1 hc.listA
  have pos_of_ne {x : BitVec 8} (hx : x ≠ 0) : 1 ≤ x.toNat := by
    rw [Nat.one_le_iff_ne_zero]
    exact fun h0 => hx (BitVec.eq_of_toNat_eq h0)
  refine ⟨rfl, hA, hA ▸ h1, hA ▸ h8, hin, rfl, fun ha => ?alternate, fun ha => ?single, fun k hk => getLsbD_of_lt (n := 12) hc.scan hk,
    fun i => mem_maskInputs_of_lt hc.scan, maskInputs_pairwise _, fun hs => hc.room ?scan,
    fun k hk => getLsbD_of_lt (n := 12) hc.format hk, fun i => mem_maskInputs_of_lt hc.format,
    fun k hk => getLsbD_of_lt (n := 1) hc.flags hk, rfl, rfl, pos_of_ne hc.period.1, hc.period.2, pos_of_ne hc.batch.1,
    hc.batch.2, hc.tension⟩
  case alternate =>
    have hflag : bitOf p.flags 0 = true := ha
    obtain ⟨hB, hb1, hb8, hbin⟩ := (listOk_iff hlen.2).1 (hc.listB hflag)
    simp only [planSpelled, hflag, if_true]
    exact ⟨rfl, hB, hB ▸ hb1, hB ▸ hb8, hbin, hc.even hflag⟩
  case single =>
    have hflag : bitOf p.flags 0 = false := ha
    simp [planSpelled, hflag]
  case scan =>
    rintro h0
    apply hs
    simp [planSpelled, maskInputs, h0]

end Sys2Proof.Machine
end

section
/-! The arbiter's choice (R179): the starved requester first, else the fixed order; the counts after a grant. O31. -/

namespace Sys2Proof.Machine

section
variable {s : State}

theorem State.mem_portOrder (s : State) (r : Requester) : r ∈ s.portOrder := by
  unfold State.portOrder
  split <;> cases r <;> decide

/-- An urgent Tape Transfer Engine waits. -/
theorem State.waits_tte_of_urgent (h : s.tteUrgent = true) : s.waits .tte = true := by
  unfold State.tteUrgent at h
  unfold State.waits
  revert h
  cases s.tteWork with
  | none => exact fun h => Bool.noConfusion h
  | some w => exact fun _ => rfl

/-- Who is served first: a waiting requester whose count has reached 64, if there is one. -/
theorem State.choice_of_starved {q : Requester} (hq : s.waits q = true) (hc : 64 ≤ s.bpu.starve.get q) :
    ∃ r, s.choice = some r ∧ s.waits r = true ∧ 64 ≤ s.bpu.starve.get r := by
  have hsome : (s.portOrder.find? fun r => s.waits r && decide (64 ≤ s.bpu.starve.get r)).isSome = true := by
    rw [List.find?_isSome]
    exact ⟨q, s.mem_portOrder q, by simp [hq, hc]⟩
  obtain ⟨r, hr⟩ := Option.isSome_iff_exists.1 hsome
  have hp := List.find?_some hr
  simp only [Bool.and_eq_true, decide_eq_true_eq] at hp
  exact ⟨r, by rw [State.choice, hr]; rfl, hp⟩

/-- With nobody starved the fixed order decides. -/
theorem State.choice_of_not_starved (h : ∀ q, s.waits q = true → s.bpu.starve.get q < 64) :
    s.choice = s.portOrder.find? s.waits := by
  have hnone : (s.portOrder.find? fun r => s.waits r && decide (64 ≤ s.bpu.starve.get r)) = none := by
    rw [List.find?_eq_none]
    intro r _ hr
    simp only [Bool.and_eq_true, decide_eq_true_eq] at hr
    exact absurd (h r hr.1) (by omega)
  rw [State.choice, hnone]
  rfl

theorem State.waits_of_choice {r : Requester} (h : s.choice = some r) : s.waits r = true := by
  by_cases hs : ∃ q, s.waits q = true ∧ 64 ≤ s.bpu.starve.get q
  · obtain ⟨q, hq, hc⟩ := hs
    obtain ⟨r', hr', hw, -⟩ := State.choice_of_starved hq hc
    rw [h, Option.some_inj] at hr'
    exact hr' ▸ hw
  · rw [State.choice_of_not_starved fun q hq => Nat.lt_of_not_le fun hc => hs ⟨q, hq, hc⟩] at h
    exact List.find?_some h

theorem State.choice_isSome_of_waits {r : Requester} (h : s.waits r = true) : s.choice.isSome = true := by
  by_cases hs : ∃ q, s.waits q = true ∧ 64 ≤ s.bpu.starve.get q
  · obtain ⟨q, hq, hc⟩ := hs
    obtain ⟨r', hr', -⟩ := State.choice_of_starved hq hc
    rw [hr']
    rfl
  · rw [State.choice_of_not_starved fun q hq => Nat.lt_of_not_le fun hc => hs ⟨q, hq, hc⟩, List.find?_isSome]
    exact ⟨r, s.mem_portOrder r, h⟩

theorem State.portOrder_of_urgent (h : s.tteUrgent = true) : s.portOrder = [.tte, .upstream, .pack, .unpack, .ring] := if_pos h

theorem State.portOrder_of_not_urgent (h : s.tteUrgent = false) :
    s.portOrder = [.upstream, .tte, .pack, .unpack, .ring] := if_neg (by simp [h])

/-- Place 6 is the last of both orders. -/
theorem State.portOrder_ring (s : State) : ∃ l, s.portOrder = l ++ [.ring] ∧ ∀ q, q ∈ l ↔ q ≠ .ring := by
  cases hu : s.tteUrgent
  · exact ⟨[.upstream, .tte, .pack, .unpack], State.portOrder_of_not_urgent hu, fun q => by cases q <;> decide⟩
  · exact ⟨[.tte, .upstream, .pack, .unpack], State.portOrder_of_urgent hu, fun q => by cases q <;> decide⟩

theorem State.before_ring {p : Requester → Bool} (h : s.portOrder.find? p = some .ring) {q : Requester} (hq : q ≠ .ring) :
    ¬p q = true := by
  obtain ⟨l, hl, hmem⟩ := s.portOrder_ring
  rw [hl, List.find?_append] at h
  cases hf : l.find? p with
  | none => exact List.find?_eq_none.1 hf q ((hmem q).2 hq)
  | some r =>
    rw [hf] at h
    cases h
    exact absurd rfl ((hmem _).1 (List.mem_of_find?_eq_some hf))

/-- A count after a grant, requester by requester. -/
theorem State.countGrant_get (s : State) (r q : Requester) :
    (s.countGrant r).bpu.starve.get q = if q = r ∨ s.waits q = false then 0 else s.bpu.starve.get q + 1 := by
  cases q <;> rfl

end

/-- Settles O31: by the two ways the choice is made, then the order with and without urgency. -/
theorem arbiterChoice : Obligations.ArbiterChoice := by
  intro s
  refine ⟨⟨fun ⟨r, hr⟩ => State.choice_isSome_of_waits hr, fun h => ?some⟩, fun r => State.waits_of_choice, fun r q hr hq hc => ?starved,
    fun hlow => ⟨fun hu => ?urgent, fun hu hup => ?upstream, fun hup ht => ?tte, fun hup ht hp => ?pack, fun hr => ?ring⟩,
    s.countGrant_get⟩
  case some =>
    obtain ⟨r, hr⟩ := Option.isSome_iff_exists.1 h
    exact ⟨r, State.waits_of_choice hr⟩
  case starved =>
    obtain ⟨r', hr', -, hc'⟩ := State.choice_of_starved hq hc
    rw [hr, Option.some_inj] at hr'
    exact hr' ▸ hc'
  all_goals have hchoice := State.choice_of_not_starved hlow
  case urgent => rw [hchoice, State.portOrder_of_urgent hu, List.find?_cons, State.waits_tte_of_urgent hu]
  case upstream => rw [hchoice, State.portOrder_of_not_urgent hu, List.find?_cons, hup]
  case tte =>
    rw [hchoice]
    cases hu : s.tteUrgent
    · simp [State.portOrder_of_not_urgent hu, hup, ht]
    · simp [State.portOrder_of_urgent hu, ht]
  case pack =>
    have hu : s.tteUrgent = false := by
      cases hu : s.tteUrgent
      · rfl
      · rw [State.waits_tte_of_urgent hu] at ht
        cases ht
    simp [hchoice, State.portOrder_of_not_urgent hu, hup, ht, hp]
  case ring =>
    have hbefore : ∀ q, q ≠ .ring → s.waits q = false := fun q hq => by
      simpa using State.before_ring (hchoice ▸ hr) hq
    exact ⟨hbefore _ (by decide), hbefore _ (by decide), hbefore _ (by decide), hbefore _ (by decide)⟩

end Sys2Proof.Machine
end

section
/-! What the checks of a commit (R174) and of a copy read back (R88) leave: O19 and O58; and the two ways of a note (R187): O20. -/

namespace Sys2Proof.Machine

/-! ### Commits -/

theorem fieldAt_one (b : List Byte) (k : Nat) : fieldAt b k 1 = (b.getD k 0).toNat := by
  unfold fieldAt
  rw [List.take_one, List.head?_drop, List.getD_eq_getElem?_getD]
  cases b[k]? <;> rfl

/-- The checks of R174 that a commit of descriptor `i` with these sixteen bytes has passed. -/
structure CommitChecks (s : State) (i : Nat) (b : List Byte) : Prop where
  zeros : ∀ x ∈ (b.drop 13).take 3, x = 0
  initiators : fieldAt b 11 1 < 4
  enable : fieldAt b 12 1 ≤ 1
  kind : fieldAt b 8 1 ≤ 7
  mode : fieldAt b 9 1 ≤ 2
  enabled : (Descriptor.ofBytes b).enable = true →
    (Descriptor.ofBytes b).kind ≠ .none ∧ ((Descriptor.ofBytes b).mode = .limit → (Descriptor.ofBytes b).limit ≠ 0)
      ∧ fieldAt b 11 1 ≠ 0
  single : (Descriptor.ofBytes b).enable = true → (Descriptor.ofBytes b).kind ≠ .plain →
    s.kindTaken i (Descriptor.ofBytes b).kind = false
  limits : (Descriptor.ofBytes b).enable = true → (Descriptor.ofBytes b).breaksLimits = false
  oldIdle : s.holdsState (s.oldKind i) = false
  newIdle : (Descriptor.ofBytes b).enable = true → s.holdsState (Descriptor.ofBytes b).kind = false

theorem judgeCommit_eq_none {s : State} {i : Nat} {b : List Byte} (h : s.judgeCommit i b = none) : CommitChecks s i b := by
  unfold State.judgeCommit at h
  dsimp only at h
  split at h; · cases h
  next hzeros =>
  split at h; · cases h
  next hcodes =>
  split at h; · cases h
  next hsingle =>
  split at h; · cases h
  next hlimits =>
  split at h; · cases h
  next hidle =>
  simp only [Bool.or_eq_true, Bool.and_eq_true, List.any_eq_true, bne_iff_ne, decide_eq_true_eq, beq_iff_eq, not_or, not_and,
    not_exists, ne_eq, not_not, not_le, not_lt, Bool.not_eq_true] at hzeros hcodes hsingle hlimits hidle
  obtain ⟨⟨hzero, hwho⟩, henable⟩ := hzeros
  obtain ⟨⟨hkind, hmode⟩, hon⟩ := hcodes
  exact ⟨hzero, hwho, henable, hkind, hmode, fun h => ⟨(hon h).1.1, (hon h).1.2, (hon h).2⟩,
    fun h hk => hsingle ⟨h, hk⟩, hlimits, hidle.1, hidle.2⟩

/-- Of another descriptor in effect the kind is the old one, so it is not taken (R174, code 3). -/
theorem kind_ne_of_not_taken {s : State} {i j : Nat} {k : RegionKind} {d : Descriptor} (h : s.kindTaken i k = false)
    (hj : j < 16) (hji : j ≠ i) (hd : s.bpu.effective[j]? = some d) (hen : d.enable = true) : d.kind ≠ k := by
  have hold : s.oldKind j = d.kind := by simp [State.oldKind, hd, hen]
  unfold State.kindTaken at h
  rw [List.any_eq_false] at h
  simpa [hji, hold] using h j (List.mem_range.2 hj)

/-- Two bits that are not both 0. -/
theorem bit_of_ne_zero {x : Byte} (hlt : x.toNat < 4) (hne : x.toNat ≠ 0) : bitOf x 0 = true ∨ bitOf x 1 = true := by
  revert hlt hne
  unfold bitOf
  revert x
  decide

/-- Settles O19: each check gives its part. -/
theorem acceptedCommitsAreSound : Obligations.AcceptedCommitsAreSound := by
  intro s i b hlen h
  have hc := judgeCommit_eq_none h
  refine ⟨fun k hk hk' => hc.zeros _ ?zero, ?who, ?enable, ?kind, ?mode, hc.oldIdle, fun hen => ?enabled⟩
  case zero =>
    rw [List.mem_take_iff_getElem]
    refine ⟨k - 13, by simp; omega, ?_⟩
    rw [List.getElem_drop, List.getD_eq_getElem _ _ (by omega)]
    congr 1
    omega
  case who => exact fieldAt_one b 11 ▸ hc.initiators
  case enable => exact fieldAt_one b 12 ▸ hc.enable
  case kind => exact fieldAt_one b 8 ▸ hc.kind
  case mode => exact fieldAt_one b 9 ▸ hc.mode
  case enabled =>
    obtain ⟨hkind, hlimit, hwho⟩ := hc.enabled hen
    have hbreaks := hc.limits hen
    simp only [Descriptor.breaksLimits, Bool.or_eq_false_iff, decide_eq_false_iff_not, not_lt, bne_eq_false_iff_eq,
      Descriptor.bytes, Config.pageSize, Config.mapPage] at hbreaks
    obtain ⟨⟨⟨hmin, hmax⟩, hbase⟩, hend⟩ := hbreaks
    have hfits := of_decide_eq_false hend
    refine ⟨hkind, hlimit, bit_of_ne_zero (fieldAt_one b 11 ▸ hc.initiators) (fieldAt_one b 11 ▸ hwho),
      fun hp j k hj hji hk hke => kind_ne_of_not_taken (hc.single hen hp) hj hji hk hke, hbase, by omega, ?_,
      hc.newIdle hen⟩
    revert hkind hmin hmax
    cases (Descriptor.ofBytes b).kind <;> simp +contextual [pageLimits]

/-! ### Copies read back -/

theorem mem_numbered {m : Spm} {ok : Slot → Bool} {i t : Nat} :
    (t, i) ∈ m.numbered ok ↔ ∃ x, m.slots[i]? = some x ∧ ok x = true ∧ x.stripe = some t := by
  unfold Spm.numbered
  rw [List.mem_filterMap]
  constructor
  · rintro ⟨k, -, hk⟩
    split at hk
    · next x hx =>
      split at hk
      · next hok =>
        obtain ⟨u, hu, he⟩ := Option.map_eq_some_iff.1 hk
        cases he
        exact ⟨x, hx, hok, hu⟩
      · cases hk
    · cases hk
  · rintro ⟨x, hx, hok, ht⟩
    refine ⟨i, List.mem_range.2 (List.getElem?_eq_some_iff.1 hx).1, ?_⟩
    simp [hx, hok, ht]

/-- A slot in a set of states carries its stripe there. -/
theorem stripe_mem_numbered {m : Spm} {ok : Slot → Bool} {y : Slot} {t : Nat} (hy : y ∈ m.slots) (hok : ok y = true)
    (ht : y.stripe = some t) : ∃ i, (t, i) ∈ m.numbered ok := by
  obtain ⟨i, hi⟩ := List.mem_iff_getElem?.1 hy
  exact ⟨i, mem_numbered.2 ⟨y, hi, hok, ht⟩⟩

/-- The checks of R88 that an accepted copy has passed. -/
theorem ruling_eq_accepted {s : State} {r : ReadState} {x : Reception} {h : Header}
    {report : Option (Bool × Bool × Counts)} (ha : s.ruling r x h report = .accepted) :
    x.overrun = false ∧ (∃ counts, report = some (false, true, counts) ∧ counts.rows = 0)
      ∧ (s.validDirectory.map fun d => decide (d.eodStripe ≤ h.stripe)).getD false = false
      ∧ r.n ≤ h.stripe ∧ h.stripe ∉ s.spm.carried
      ∧ (∀ y ∈ s.spm.numbered (·.state == .delivering), y.1 ≠ h.stripe)
      ∧ ((s.referenceGeneration r h.stripe).map fun g => decide (h.generation < g)).getD false = false := by
  unfold State.ruling at ha
  split at ha
  · split at ha <;> cases ha
  · next blank valid counts =>
    split at ha; · cases ha
    next hover =>
    split at ha; · cases ha
    next hblank =>
    split at ha; · cases ha
    next hvalid =>
    split at ha; · cases ha
    next hbeyond =>
    split at ha; · cases ha
    next hdup =>
    split at ha; · cases ha
    next hold =>
    split at ha; · cases ha
    next hrows =>
    simp only [Bool.not_eq_true, Bool.not_eq_true', Bool.not_eq_false, Bool.or_eq_true, decide_eq_true_eq, not_or, not_lt,
      List.contains_eq_mem, List.any_eq_true, beq_iff_eq, not_exists, not_and, not_not, ne_eq]
      at hover hblank hvalid hbeyond hdup hold hrows
    obtain ⟨⟨hn, hcarried⟩, hdelivering⟩ := hdup
    exact ⟨hover, ⟨counts, by rw [hblank, hvalid], hrows⟩, hbeyond, hn, hcarried, hdelivering, hold⟩

/-- Settles O58: the checks, with the slots that carry a number read off the table. -/
theorem acceptedCopiesAreSound : Obligations.AcceptedCopiesAreSound := by
  intro s r x h report ha
  obtain ⟨hover, hreport, hbeyond, hn, hcarried, hdelivering, hold⟩ := ruling_eq_accepted ha
  refine ⟨hover, hreport, hn, fun y hy hstate hstripe => ?slots, fun d hd => ?directory, fun g hg => ?generation⟩
  case slots =>
    by_cases hdel : y.state = .delivering
    · obtain ⟨i, hi⟩ := stripe_mem_numbered (ok := fun z => z.state == .delivering) hy (by simp [hdel]) hstripe
      exact hdelivering _ hi rfl
    · obtain ⟨i, hi⟩ := stripe_mem_numbered (ok := fun z => z.state == .readDone || z.state == .readFailed) hy
        (by simpa [hdel] using hstate) hstripe
      exact hcarried (List.mem_map.2 ⟨_, hi, rfl⟩)
  case directory =>
    rw [hd] at hbeyond
    exact Nat.lt_of_not_le (of_decide_eq_false hbeyond)
  case generation =>
    rw [hg] at hold
    exact Nat.le_of_not_lt (of_decide_eq_false hold)

/-! ### Notes -/

theorem State.note_ci (s : State) (k : NoteKind) (a b : Detail) : (s.note k a b).ci = s.ci := by
  unfold State.note State.tryRecord
  repeat' split
  all_goals rfl

theorem State.note_cw_of_waiting {s : State} {k : NoteKind} (a b : Detail)
    (h : (s.cw.pending.any fun i => i.cmd.isNone && i.code == k.code) = true) :
    (s.note k a b).cw = { s.cw with
      pending := s.cw.pending.map fun i =>
        if i.cmd.isNone && i.code == k.code then { i with value := min 255 (i.value + 1) } else i } := by
  simp [State.note, h]

/-- Settles O20: by whether one of the kind still waits. -/
theorem notesAreCountedUp : Obligations.NotesAreCountedUp := by
  intro s k a b
  refine ⟨s.note_ci k a b, State.dram_of_rest (s.note_rest k a b), fun hnew => ?new, fun hwait => ?waiting⟩
  case new =>
    refine State.note_pending_of_new a b ?_
    rw [List.any_eq_false]
    intro i hi
    simpa using hnew i hi
  case waiting =>
    obtain ⟨i, hi, hcmd, hcode⟩ := hwait
    rw [State.note_cw_of_waiting a b (List.any_eq_true.2 ⟨i, hi, by simp [hcmd, hcode]⟩)]
    simp

end Sys2Proof.Machine
end

section
/-! Entry into FAULT (R124): what the ends of writing and reading leave of the Tape Transfer Engine, and O41. -/

namespace Sys2Proof.Machine

/-- The verify pipeline and the reading state. -/
def State.checking (s : State) : Option Verify × Option ReadState := (s.tte.verify, s.tte.read)

section
variable (s : State)

/-! ### Operations that leave both -/

@[simp] theorem State.onCi_checking (f : Ci → Ci) : (s.onCi f).checking = s.checking := rfl
@[simp] theorem State.onCw_checking (f : Cw → Cw) : (s.onCw f).checking = s.checking := rfl
@[simp] theorem State.onPins_checking (f : Pins → Pins) : (s.onPins f).checking = s.checking := rfl
@[simp] theorem State.onPe_checking (f : Pe → Pe) : (s.onPe f).checking = s.checking := rfl
@[simp] theorem State.onSpm_checking (f : Spm → Spm) : (s.onSpm f).checking = s.checking := rfl
@[simp] theorem State.onRg_checking (f : Rg → Rg) : (s.onRg f).checking = s.checking := rfl
@[simp] theorem State.onHm_checking (f : Hm → Hm) : (s.onHm f).checking = s.checking := rfl
@[simp] theorem State.onCml_checking (f : Cml → Cml) : (s.onCml f).checking = s.checking := rfl
@[simp] theorem State.freeSlot_checking (i : Nat) : (s.freeSlot i).checking = s.checking := rfl
@[simp] theorem State.freeAll_checking (ok : Slot → Bool) : (s.freeAll ok).checking = s.checking := rfl
@[simp] theorem State.applyStripe_checking (x : StripeDone) : (s.applyStripe x).checking = s.checking := rfl
@[simp] theorem State.sampleRate_checking : s.sampleRate.checking = s.checking := rfl

@[simp] theorem State.tryRecord_checking : s.tryRecord.checking = s.checking := by
  unfold State.tryRecord
  split <;> rfl

@[simp] theorem State.complete_checking (id : Nat) (r : Result) (a b : Detail) :
    (s.complete id r a b).checking = s.checking := by
  unfold State.complete
  split <;> simp

@[simp] theorem State.completeIntake_checking (r : Result) :
    ∀ (cs : List IntakeCmd) (s : State), (s.completeIntake cs r).checking = s.checking
  | [], _ => rfl
  | _ :: cs, s => (State.completeIntake_checking r cs _).trans (s.complete_checking ..)

@[simp] theorem State.note_checking (k : NoteKind) (a b : Detail) : (s.note k a b).checking = s.checking := by
  unfold State.note
  split <;> simp

@[simp] theorem State.enterHealth_checking (h : Health) (cause : Nat) : (s.enterHealth h cause).checking = s.checking := by
  unfold State.enterHealth
  dsimp only
  repeat' split
  all_goals simp

@[simp] theorem State.score_checking (verify needs : Bool) (c : Option Counts) (stripe : Nat) :
    (s.score verify needs c stripe).checking = s.checking := by
  simp [State.score, State.setIndex]

@[simp] theorem State.raiseIndex_checking : s.raiseIndex.checking = s.checking := by
  simp [State.raiseIndex, State.setIndex]

@[simp] theorem State.moveSlot_checking (i : Nat) (old new : SlotState) (f : Slot → Slot) :
    (s.moveSlot i old new f).checking = s.checking := by
  unfold State.moveSlot
  split <;> rfl

@[simp] theorem State.triggerSeal_checking : s.triggerSeal.checking = s.checking := by
  unfold State.triggerSeal State.withdrawBare
  dsimp only
  repeat' split
  all_goals rfl

@[simp] theorem State.freeVerified_checking : ∀ (n : Nat) (s : State), (State.freeVerified n s).checking = s.checking
  | 0, _ => rfl
  | n + 1, s => by
    unfold State.freeVerified
    dsimp only
    repeat' split
    all_goals simp [State.freeVerified_checking n]

@[simp] theorem State.freeRun_checking : s.freeRun.checking = s.checking := by
  unfold State.freeRun State.sweepDropped
  rw [State.freeVerified_checking]
  split <;> simp

@[simp] theorem State.dropSlot_checking (i : Nat) : (s.dropSlot i).checking = s.checking := by
  simp [State.dropSlot]

/-- The direction enters WRITE_FAILED with its cause; what is verified or read stands. -/
@[simp] theorem State.enterWriteFailed_checking (cause : Cause) : (s.enterWriteFailed cause).checking = s.checking := by
  have htte (t : State) : (t.onTte fun u => { u with cause := some cause }).checking = t.checking := rfl
  unfold State.enterWriteFailed
  dsimp only
  rw [State.completeIntake_checking, State.onPe_checking, State.onRg_checking, htte, State.onSpm_checking]
  split <;> simp

@[simp] theorem State.permanentFailure_checking (i : Nat) (c : Option Counts) :
    (s.permanentFailure i c).checking = s.checking := by
  simp [State.permanentFailure]

/-! ### The ends of writing -/

/-- A failed verify empties the verify pipeline and leaves the reading state. -/
theorem State.judgeFailed_checking (i : Nat) (c : Option Counts) : (s.judgeFailed i c).checking = (none, s.tte.read) := by
  have hjudged : ((s.onTte fun t => { t with verify := none })).checking = (none, s.tte.read) := rfl
  unfold State.judgeFailed
  dsimp only
  repeat' split
  all_goals simp [hjudged]

theorem State.deadline_checking : s.deadline.checking = (none, s.tte.read) := by
  unfold State.deadline
  split
  · exact s.judgeFailed_checking _ _
  · next h => exact Prod.ext h rfl

theorem State.deadline_running : s.deadline.running = s.running := by
  unfold State.deadline
  split
  · exact s.judgeFailed_running _ _
  · rfl

theorem State.read_of_checking {s t : State} (h : s.checking = t.checking) : s.tte.read = t.tte.read := congrArg (·.2) h

theorem State.mc_of_running {s t : State} (h : s.running = t.running) : s.mc = t.mc := congrArg (·.2.2.2.2.1) h

theorem State.inFlight_of_running {s t : State} (h : s.running = t.running) : s.tte.inFlight = t.tte.inFlight :=
  congrArg (·.1) h

theorem State.returnInFlight_checking : s.returnInFlight.checking = s.checking := by
  have htte (t : State) : (t.onTte fun u => { u with inFlight := none, fifo := [] }).checking = t.checking := rfl
  unfold State.returnInFlight
  dsimp only
  repeat' split
  all_goals simp [htte]

/-- The stripe given back: nothing is in flight, and the tape stands. -/
theorem State.returnInFlight_eq : s.returnInFlight.tte.inFlight = none ∧ s.returnInFlight.mc = s.mc := by
  unfold State.returnInFlight
  split
  · next h => exact ⟨h, rfl⟩
  · next f _ =>
    have hmoved := State.moveSlot_running (s.onTte fun t => { t with inFlight := none, fifo := [] }) f.slot .writing .sealed id
    dsimp only
    split
    · have hdropped := (State.dropSlot_running _ f.slot).trans hmoved
      exact ⟨State.inFlight_of_running hdropped, (State.mc_of_running hdropped :)⟩
    · exact ⟨State.inFlight_of_running hmoved, (State.mc_of_running hmoved :)⟩

/-- Channel end leaves nothing in flight, the tape and the reading state as they stood (R68). -/
theorem State.channelEnd_eq :
    s.channelEnd.tte.inFlight = none ∧ s.channelEnd.mc = s.mc ∧ s.channelEnd.tte.read = s.tte.read := by
  unfold State.channelEnd
  split
  · next h => exact ⟨h, rfl, rfl⟩
  · next f _ =>
    refine ⟨(State.returnInFlight_eq _).1, ?_, ?_⟩
    · rw [(State.returnInFlight_eq _).2]
      split
      · exact State.mc_of_running s.deadline_running
      · rfl
    · rw [State.read_of_checking (State.returnInFlight_checking _)]
      split
      · exact congrArg (·.2) s.deadline_checking
      · rfl

/-- Streaming ended by a fault leaves nothing in flight, nothing to verify and no run-on (R68, R72). -/
theorem State.cutWriting_eq :
    s.cutWriting.tte.inFlight = none ∧ s.cutWriting.tte.verify = none ∧ s.cutWriting.tte.runOn = none
      ∧ s.cutWriting.mc = s.mc := by
  obtain ⟨hflight, hmc, -⟩ := s.channelEnd_eq
  have hrun := s.channelEnd.deadline_running
  exact ⟨(State.inFlight_of_running hrun).trans hflight, congrArg (·.1) s.channelEnd.deadline_checking, rfl,
    (State.mc_of_running hrun).trans hmc⟩

/-! ### The end of reading -/

theorem State.abandonReception_mc : s.abandonReception.mc = s.mc := by
  unfold State.abandonReception
  split <;> rfl

theorem State.abandonReception_tte :
    s.abandonReception.tte.inFlight = s.tte.inFlight ∧ s.abandonReception.tte.verify = s.tte.verify
      ∧ s.abandonReception.tte.runOn = s.tte.runOn := by
  unfold State.abandonReception
  split <;> exact ⟨rfl, rfl, rfl⟩

theorem State.abandonReception_reception : s.abandonReception.tte.read.bind (·.reception) = none := by
  unfold State.abandonReception State.onRead
  split
  · next h =>
    cases hr : s.tte.read with
    | none => simp [hr]
    | some r => simpa [hr] using h
  · cases hr : s.tte.read <;> simp [State.freeSlot, State.setSlot, hr]

/-! ### FAULT -/

theorem State.complete_rg (id : Nat) (r : Result) (a b : Detail) : (s.complete id r a b).rg = s.rg := by
  unfold State.complete
  split
  · rfl
  · exact State.tryRecord_rg _

/-- The tape braked, and a cleaning run with it (R124). -/
def State.braked : State := (s.onMc Mc.brake).onHm fun h => { h with cleaning := .none }

/-- Entry into FAULT up to its completion and its note: the tape braked, writing and reading ended (R124). -/
def State.faulted : State := s.braked.cutWriting.abandonReception.onRg fun g => g.await .none .threshold

/-- The completion and the note of a fault leave the engines as they stand. -/
theorem State.enterFault_engines (cause : Nat) (r : Result) (b : Detail) :
    (s.enterFault cause r b).running = s.faulted.running ∧ (s.enterFault cause r b).checking = s.faulted.checking
      ∧ (s.enterFault cause r b).rg = s.faulted.rg := by
  unfold State.enterFault State.faultNote
  dsimp only
  rw [State.note_running, State.note_checking, State.note_rg]
  split
  · exact ⟨State.complete_running .., State.complete_checking .., State.complete_rg ..⟩
  · exact ⟨rfl, rfl, rfl⟩

theorem State.faulted_mc : s.faulted.mc = s.mc.brake :=
  (State.abandonReception_mc _).trans (State.cutWriting_eq _).2.2.2

theorem State.faulted_tte :
    s.faulted.tte.inFlight = none ∧ s.faulted.tte.verify = none ∧ s.faulted.tte.runOn = none
      ∧ s.faulted.tte.read.bind (·.reception) = none := by
  obtain ⟨hflight, hverify, hrun, -⟩ := s.braked.cutWriting_eq
  obtain ⟨hflight', hverify', hrun'⟩ := s.braked.cutWriting.abandonReception_tte
  exact ⟨hflight'.trans hflight, hverify'.trans hverify, hrun'.trans hrun, s.braked.cutWriting.abandonReception_reception⟩

end

/-- Settles O41: the brake, then the ends of writing and of reading; the completion and the note leave them. -/
theorem faultEntry : Obligations.FaultEntry := by
  intro s cause r b
  dsimp only
  obtain ⟨hrunning, hchecking, hrg⟩ := s.enterFault_engines cause r b
  obtain ⟨hflight, hverify, hrun, hreception⟩ := s.faulted_tte
  refine ⟨(State.mc_of_running hrunning).trans s.faulted_mc, (State.inFlight_of_running hrunning).trans hflight,
    (congrArg (·.1) hchecking).trans hverify, (congrArg (·.2.2.1) hrunning).trans hrun, ?_, ?_, ?_⟩
  · rw [State.read_of_checking hchecking, hreception]
  · rw [hrg]
    rfl
  · rw [hrg]
    rfl

end Sys2Proof.Machine
end

section
/-! Little-endian fields read back as written (chapter 0), and O53 from them. -/

namespace Sys2Proof.Machine

/-! ### Fields -/

theorem ofLe_toLe : ∀ n x, ofLe (toLe n x) = x % 256 ^ n
  | 0, x => (Nat.mod_one x).symm
  | n + 1, x => by
    have hbyte : (BitVec.ofNat 8 (x % 256)).toNat = x % 256 := by simp
    rw [toLe, ofLe, hbyte, ofLe_toLe n, Nat.pow_succ', Nat.mod_mul]

theorem ofLe_toLe_of_lt {n x : Nat} (h : x < 256 ^ n) : ofLe (toLe n x) = x := (ofLe_toLe n x).trans (Nat.mod_eq_of_lt h)

/-! ### Entries (R9) -/

theorem Entry.flags_lt (e : Entry) : e.flags < 16 := by
  unfold Entry.flags
  cases e.filemark <;> cases e.first <;> cases e.last <;> cases e.compressed <;> decide

/-- The flags byte gives its four flags back. -/
theorem flags_bits (a b c d : Bool) :
    let f := BitVec.ofNat 8 (byteOfBits [a, b, c, d] % 256)
    bitOf f 0 = a ∧ bitOf f 1 = b ∧ bitOf f 2 = c ∧ bitOf f 3 = d := by
  revert a b c d
  decide

theorem Entry.ofBytes_bytes {e : Entry} (hi : e.index < 65536) (hr : e.raw < 16777216) (hc : e.coded < 16777216)
    (hx : e.crc < 4294967296) : Entry.ofBytes e.bytes = e := by
  obtain ⟨hmark, hfirst, hlast, hcomp⟩ := flags_bits e.filemark e.first e.last e.compressed
  calc Entry.ofBytes e.bytes
      = { index := ofLe (toLe 2 e.index), raw := ofLe (toLe 3 e.raw), coded := ofLe (toLe 3 e.coded)
          filemark := bitOf (BitVec.ofNat 8 (e.flags % 256)) 0, first := bitOf (BitVec.ofNat 8 (e.flags % 256)) 1
          last := bitOf (BitVec.ofNat 8 (e.flags % 256)) 2, compressed := bitOf (BitVec.ofNat 8 (e.flags % 256)) 3
          crc := ofLe (toLe 4 e.crc) } := rfl
    _ = e := by
      rw [ofLe_toLe_of_lt hi, ofLe_toLe_of_lt hr, ofLe_toLe_of_lt hc, ofLe_toLe_of_lt hx]
      simp only [Entry.flags, hmark, hfirst, hlast, hcomp]

theorem Entry.zerosOk_bytes (e : Entry) : entryZerosOk e.bytes = true := by
  have hflags : (BitVec.ofNat 8 (e.flags % 256)).toNat < 16 := by
    have := e.flags_lt
    rw [BitVec.toNat_ofNat]
    omega
  show (([0, 0, 0] : List Byte).all (· == 0) && decide ((BitVec.ofNat 8 (e.flags % 256)).toNat < 16)) = true
  rw [decide_eq_true hflags]
  rfl

/-! ### Headers (R7, R8) -/

/-- Stamping fills in the pass, the copy and the start mark, and the CRC of the whole body. -/
theorem stampHeader_sealed (stripe generation entries first dataBytes copy : Nat) (p : TapePos) :
    stampHeader (Header.sealed stripe generation entries first dataBytes) p copy =
      let body := Header.body { stripe, generation, pass := p.pass, copy, mark := p.mark, entries, first, dataBytes }
      body ++ toLe 4 (crc32 body).toNat := by
  have hbody : (Header.sealed stripe generation entries first dataBytes).take 6 ++ toLe 1 p.pass ++ toLe 1 copy
      ++ toLe 2 p.mark ++ ((Header.sealed stripe generation entries first dataBytes).drop 10).take 50
      = Header.body { stripe, generation, pass := p.pass, copy, mark := p.mark, entries, first, dataBytes } := rfl
  unfold stampHeader
  rw [hbody]

theorem Header.body_length (h : Header) : h.body.length = 60 := rfl

/-- The fields fit the bytes that hold them. -/
structure Header.Fits (h : Header) : Prop where
  stripe : h.stripe < 4294967296
  generation : h.generation < 65536
  pass : h.pass < 256
  copy : h.copy < 256
  mark : h.mark < 65536
  entries : h.entries < 65536
  first : h.first < 4294967296
  dataBytes : h.dataBytes < 4294967296

/-- The fields of a body are read back, whatever follows it. -/
theorem Header.ofBytes_body {h : Header} (hf : h.Fits) (rest : List Byte) : Header.ofBytes (h.body ++ rest) = h := by
  calc Header.ofBytes (h.body ++ rest)
      = { stripe := ofLe (toLe 4 h.stripe), generation := ofLe (toLe 2 h.generation), pass := ofLe (toLe 1 h.pass)
          copy := ofLe (toLe 1 h.copy), mark := ofLe (toLe 2 h.mark), entries := ofLe (toLe 2 h.entries)
          first := ofLe (toLe 4 h.first), dataBytes := ofLe (toLe 4 h.dataBytes) } := rfl
    _ = h := by
      rw [ofLe_toLe_of_lt hf.stripe, ofLe_toLe_of_lt hf.generation, ofLe_toLe_of_lt hf.pass, ofLe_toLe_of_lt hf.copy,
        ofLe_toLe_of_lt hf.mark, ofLe_toLe_of_lt hf.entries, ofLe_toLe_of_lt hf.first, ofLe_toLe_of_lt hf.dataBytes]

/-- A stamped header's own CRC stands in its last four bytes. -/
theorem Header.crc_stamped (h : Header) :
    (crc32 ((h.body ++ toLe 4 (crc32 h.body).toNat).take 60)).toNat
      = fieldAt (h.body ++ toLe 4 (crc32 h.body).toNat) 60 4 := by
  have hcrc : (crc32 h.body).toNat < 256 ^ 4 := (crc32 h.body).isLt
  rw [List.take_left' h.body_length, fieldAt, List.drop_left' h.body_length, List.take_of_length_le (by rw [toLe_length]),
    ofLe_toLe_of_lt hcrc]

theorem Header.zeros_body (h : Header) (rest : List Byte) : (((h.body ++ rest).drop 20).take 40).all (· == 0) = true := by
  have hz : ((h.body ++ rest).drop 20).take 40 = zeros 40 := rfl
  rw [hz]
  decide

/-- A stamped header passes the checks of R8 at its place. -/
theorem Header.valid_stamped {h : Header} (hf : h.Fits) (hcopy : h.copy ≤ 3) (hgen : 1 ≤ h.generation)
    (hone : 1 ≤ h.entries) (hmany : h.entries ≤ 4096) (hroom : 64 + h.dataBytes + 16 * h.entries ≤ 1048576) {p : TapePos}
    (hp : h.pass = p.pass) (hm : h.mark = p.mark) :
    headerValidAt true (h.body ++ toLe 4 (crc32 h.body).toNat) p = true := by
  have hread := Header.ofBytes_body hf (toLe 4 (crc32 h.body).toNat)
  have hpass : fieldAt (h.body ++ toLe 4 (crc32 h.body).toNat) 6 1 = h.pass := congrArg Header.pass hread
  have hmark : fieldAt (h.body ++ toLe 4 (crc32 h.body).toNat) 8 2 = h.mark := congrArg Header.mark hread
  unfold headerValidAt headerFieldsOk
  simp only [hread, h.crc_stamped, hpass, hmark, h.zeros_body, Config.maxEntries, Config.headerSize, Config.stripeSize]
  simp [hcopy, hone, hmany, hroom, hp, hm]
  omega

/-- Settles O53: entries field by field, and headers by the body that stamping completes. -/
theorem headersAndEntriesReadBack : Obligations.HeadersAndEntriesReadBack := by
  refine ⟨fun e hi hr hc hx => ⟨rfl, Entry.ofBytes_bytes hi hr hc hx, e.zerosOk_bytes⟩, ?_⟩
  intro stripe generation entries first dataBytes copy p hs hg1 hg he1 he hfirst hroom hcopy hp hm
  dsimp only
  rw [stampHeader_sealed]
  have hfits : Header.Fits { stripe, generation, pass := p.pass, copy, mark := p.mark, entries, first, dataBytes } :=
    ⟨hs, hg, hp, (by omega : copy < 256), hm, (by omega : entries < 65536), hfirst, (by omega : dataBytes < 4294967296)⟩
  exact ⟨rfl, Header.valid_stamped hfits hcopy hg1 he1 he hroom rfl rfl, Header.ofBytes_body hfits _⟩

end Sys2Proof.Machine
end

section
/-! The accounts of the intake order (R38, R39, R41, R42), and O28 from them. -/

namespace Sys2Proof.Machine

/-! ### Bytes counted against records (R41) -/

/-- The raw bytes records have still to receive. -/
def openBytes (rs : List OpenRecord) : Nat := (rs.map fun r => r.raw - r.got).sum

theorem OpenList.remaining_eq (l : OpenList) : l.remaining = openBytes l.records := rfl

@[simp] theorem openBytes_nil : openBytes [] = 0 := rfl

@[simp] theorem openBytes_cons (r : OpenRecord) (rs : List OpenRecord) :
    openBytes (r :: rs) = (r.raw - r.got) + openBytes rs := by simp [openBytes]

/-- `feed` takes what the records want: they want as much less, and the rest is left over. -/
theorem feed_accounts : ∀ (n : Nat) (rs : List OpenRecord),
    openBytes (feed n rs).1 = openBytes rs - n ∧ (feed n rs).2 = n - openBytes rs
  | n, [] => by simp [feed]
  | n, r :: rs => by
    obtain ⟨hbytes, hleft⟩ := feed_accounts (n - min n (r.raw - r.got)) rs
    simp only [feed, openBytes_cons, hbytes, hleft]
    omega

/-! ### Both lists -/

/-- No next list stands without a current one. -/
def Pe.Ordered (p : Pe) : Prop := p.next = none ∨ p.current ≠ none

theorem OpenList.remaining_of_full {l : OpenList} (h : l.full = true) : l.remaining = 0 := by
  simp only [OpenList.full, List.all_eq_true, decide_eq_true_eq] at h
  simp only [OpenList.remaining, List.sum_eq_zero_iff, List.mem_map]
  rintro x ⟨r, hr, rfl⟩
  have := h r hr
  omega

@[simp] theorem Pe.closeFull_nextRecord (p : Pe) : p.closeFull.nextRecord = p.nextRecord := by
  unfold Pe.closeFull
  repeat' split
  all_goals rfl

@[simp] theorem Pe.closeFull_intake (p : Pe) : p.closeFull.intake = p.intake := by
  unfold Pe.closeFull
  repeat' split
  all_goals rfl

@[simp] theorem Pe.closeFull_remaining (p : Pe) : p.closeFull.remaining = p.remaining := by
  unfold Pe.closeFull
  split
  · rfl
  next c hc =>
  split
  case isFalse => rfl
  case isTrue hfull =>
    have hzero := OpenList.remaining_of_full hfull
    split
    · next d hd =>
      split
      · next hnext => simp [Pe.remaining, hc, hd, hzero, OpenList.remaining_of_full hnext]
      · simp [Pe.remaining, hc, hd, hzero]
    · next hd => simp [Pe.remaining, hc, hd, hzero]

theorem Pe.closeFull_ordered (p : Pe) (h : p.Ordered) : p.closeFull.Ordered := by
  unfold Pe.closeFull
  split
  · exact h
  split
  · split
    · split
      · exact .inl rfl
      · exact .inl rfl
    · next hd => exact .inl hd
  · exact h

theorem Pe.count_accounts {p : Pe} {n : Nat} (hn : n ≤ p.remaining) (h : p.Ordered) :
    (p.count n).remaining + n = p.remaining ∧ (p.count n).Ordered := by
  unfold Pe.count
  split
  · next hc =>
    have hnext : p.next = none := h.resolve_right (fun hcur => hcur hc)
    have hzero : p.remaining = 0 := by simp [Pe.remaining, hc, hnext]
    exact ⟨by omega, h⟩
  next c hc =>
  obtain ⟨hbytes, hleft⟩ := feed_accounts n c.records
  dsimp only
  split
  · next hd =>
    have hord : ({ p with current := some { c with records := (feed n c.records).1 } } : Pe).Ordered := .inl hd
    refine ⟨?_, Pe.closeFull_ordered _ hord⟩
    rw [Pe.closeFull_remaining]
    simp only [Pe.remaining, hc, hd, Option.map_some, Option.map_none, Option.getD_some, Option.getD_none,
      OpenList.remaining_eq, hbytes] at hn ⊢
    omega
  · next d hd =>
    have hord : ({ p with current := some { c with records := (feed n c.records).1 }
                          next := some { d with records := (feed (feed n c.records).2 d.records).1 } } : Pe).Ordered :=
      .inr (by simp)
    obtain ⟨hrest, -⟩ := feed_accounts (feed n c.records).2 d.records
    rw [hleft] at hrest
    refine ⟨?_, Pe.closeFull_ordered _ hord⟩
    rw [Pe.closeFull_remaining]
    simp only [Pe.remaining, hc, hd, Option.map_some, Option.getD_some, OpenList.remaining_eq, hleft, hrest, hbytes] at hn ⊢
    omega

/-! ### Commands taken (R38, R39, R42) -/

theorem Pe.refuse_intake (p : Pe) :
    p.refuse = { p with intake := p.refuse.intake } ∧ p.refuse.intake.length = p.intake.length := by
  unfold Pe.refuse
  split
  · exact ⟨rfl, rfl⟩
  · exact ⟨rfl, List.length_map _⟩

/-- The open list of a STREAM_RECORD wants its raw lengths. -/
theorem openListOf_remaining (id first : Nat) (lengths : List Nat) : (openListOf id first lengths).remaining = lengths.sum := by
  have hraw : ((List.range lengths.length).map fun k => lengths.getD k 0) = lengths := by
    apply List.ext_getElem
    · simp
    · intro k h1 h2
      simp [h2]
  unfold openListOf OpenList.remaining
  rw [List.map_map]
  exact congrArg List.sum hraw

theorem Pe.takeStream_accounts {p : Pe} (id : Nat) (lengths : List Nat) (early : Bool) (h : p.next = none) :
    let q := p.takeStream id lengths early
    q.nextRecord = p.nextRecord + lengths.length ∧ q.remaining = p.remaining + lengths.sum
    ∧ q.intake = p.intake ++
        [{ id := id, mark := false, sync := false, first := p.nextRecord, lengths := lengths, placed := 0, early := early
           refusals := 0, coded := 0, synced := false }]
    ∧ q.Ordered := by
  have hlist := openListOf_remaining id p.nextRecord lengths
  unfold Pe.takeStream
  dsimp only
  split
  · next hc =>
    have hcur : p.current = none := Option.isNone_iff_eq_none.mp hc
    refine ⟨Pe.closeFull_nextRecord _, ?_, Pe.closeFull_intake _, Pe.closeFull_ordered _ (.inl h)⟩
    rw [Pe.closeFull_remaining]
    simp [Pe.remaining, h, hcur, hlist]
  · next hc =>
    have hcur : p.current ≠ none := fun h0 => hc (by rw [h0]; rfl)
    refine ⟨Pe.closeFull_nextRecord _, ?_, Pe.closeFull_intake _, Pe.closeFull_ordered _ (.inr hcur)⟩
    rw [Pe.closeFull_remaining]
    simp [Pe.remaining, h, hlist]

/-- Settles O28: the bytes counted by `feed`, and what each way of taking a command adds. -/
theorem intakeAccounts : Obligations.IntakeAccounts :=
  ⟨⟨fun _ _ hn h => Pe.count_accounts hn h, Pe.refuse_intake⟩,
   fun _ id lengths early h => Pe.takeStream_accounts id lengths early h,
   fun _ _ _ _ _ => ⟨rfl, rfl, rfl⟩⟩

end Sys2Proof.Machine
end

section
/-! The posting buffer (R177) byte by byte, and O26 from it. -/

namespace Sys2Proof.Machine

/-! ### Lines of the buffer -/

/-- The block of a posting line. -/
def UpReq.block? : UpReq → Option Nat
  | .line k _ => some k
  | .access _ => none

/-- The blocks with a line, oldest first. -/
def lineBlocks (q : List UpReq) : List Nat := q.filterMap UpReq.block?

theorem mem_lineBlocks {q : List UpReq} {k : Nat} : k ∈ lineBlocks q ↔ ∃ l, UpReq.line k l ∈ q := by
  simp only [lineBlocks, List.mem_filterMap]
  constructor
  · rintro ⟨r, hr, hk⟩
    cases r with
    | line b l =>
      cases hk
      exact ⟨l, hr⟩
    | access a => cases hk
  · rintro ⟨l, hl⟩
    exact ⟨_, hl, rfl⟩

/-- A write that finds its line is laid over it in place. -/
theorem mergeLine_eq_some {block off : Nat} {bs : List Byte} : ∀ {q q' : List UpReq}, mergeLine block off bs q = some q' →
    ∃ older l newer, q = older ++ .line block l :: newer ∧ q' = older ++ .line block (layBytes l off bs) :: newer
  | [], _, h => by cases h
  | .line b l :: rest, q', h => by
    unfold mergeLine at h
    split at h
    · next hb =>
      cases h
      exact ⟨[], l, rest, by rw [hb]; rfl, by rw [hb]; rfl⟩
    · obtain ⟨q, hq, rfl⟩ := Option.map_eq_some_iff.1 h
      obtain ⟨older, m, newer, rfl, rfl⟩ := mergeLine_eq_some hq
      exact ⟨.line b l :: older, m, newer, rfl, rfl⟩
  | .access a :: rest, q', h => by
    unfold mergeLine at h
    obtain ⟨q, hq, rfl⟩ := Option.map_eq_some_iff.1 h
    obtain ⟨older, m, newer, rfl, rfl⟩ := mergeLine_eq_some hq
    exact ⟨.access a :: older, m, newer, rfl, rfl⟩

theorem mergeLine_eq_none {block off : Nat} {bs : List Byte} : ∀ {q : List UpReq}, mergeLine block off bs q = none →
    block ∉ lineBlocks q
  | [], _ => List.not_mem_nil
  | .line b l :: rest, h => by
    unfold mergeLine at h
    split at h
    · cases h
    · next hb =>
      have hrest := mergeLine_eq_none (Option.map_eq_none_iff.1 h)
      simp only [lineBlocks, List.filterMap_cons, UpReq.block?, List.mem_cons, not_or]
      exact ⟨fun he => hb he.symm, hrest⟩
  | .access a :: rest, h => mergeLine_eq_none (q := rest) (Option.map_eq_none_iff.1 h)

theorem getD_layBytes {l : List (Option Byte)} {off k : Nat} {bs : List Byte} (hk : k < 8) :
    (layBytes l off bs).getD k none = if off ≤ k ∧ k < off + bs.length then bs[k - off]? else l.getD k none := by
  simp [layBytes, hk]

/-! ### The byte a reader sees -/

/-- What one request makes of a byte found so far. -/
def overlay (a : Nat) (found : Option Byte) : UpReq → Option Byte
  | .line block bytes => if block ≤ a ∧ a < block + 8 then ((bytes.getD (a - block) none).or found) else found
  | .access _ => found

theorem postedByte_eq (q : List UpReq) (a : Nat) : postedByte q a = q.foldl (overlay a) none := rfl

/-- Lines of other blocks leave the byte as found. -/
theorem overlay_apart {x : Nat} : ∀ {q : List UpReq} (found : Option Byte),
    (∀ k ∈ lineBlocks q, ¬ (k ≤ x ∧ x < k + 8)) → q.foldl (overlay x) found = found
  | [], _, _ => rfl
  | .line b l :: rest, found, h => by
    have hb := h b (mem_lineBlocks.2 ⟨l, .head _⟩)
    have hrest : ∀ k ∈ lineBlocks rest, ¬ (k ≤ x ∧ x < k + 8) := fun k hk => h k (List.mem_cons_of_mem _ hk)
    rw [List.foldl_cons, overlay, if_neg hb]
    exact overlay_apart found hrest
  | .access a :: rest, found, h => overlay_apart (q := rest) found h

/-- One line covers a byte of its block. -/
theorem overlay_line {older newer : List UpReq} {k x : Nat} {l : List (Option Byte)} (hin : k ≤ x ∧ x < k + 8)
    (holder : ∀ j ∈ lineBlocks older, ¬ (j ≤ x ∧ x < j + 8)) (hnewer : ∀ j ∈ lineBlocks newer, ¬ (j ≤ x ∧ x < j + 8)) :
    postedByte (older ++ .line k l :: newer) x = l.getD (x - k) none := by
  rw [postedByte_eq, List.foldl_append, overlay_apart none holder, List.foldl_cons, overlay_apart _ hnewer, overlay,
    if_pos hin, Option.or_none]

/-- A line is not seen outside its block. -/
theorem overlay_line_outside {older newer : List UpReq} {k x : Nat} {l m : List (Option Byte)}
    (hout : ¬ (k ≤ x ∧ x < k + 8)) :
    postedByte (older ++ .line k l :: newer) x = postedByte (older ++ .line k m :: newer) x := by
  simp only [postedByte_eq, List.foldl_append, List.foldl_cons, overlay, if_neg hout]

/-! ### A posted write -/

/-- The bytes of an aligned access lie in its block. -/
theorem Access.within_block {a : Access} (h : a.addr % widthBytes a.width = 0) :
    a.block ≤ a.addr ∧ a.addr + widthBytes a.width ≤ a.block + 8 := by
  unfold Access.block
  revert h
  cases a.width <;> simp only [widthBytes] <;> omega

/-- What a line shows of its block once the access is laid over it. -/
theorem laid_byte {a : Access} {l : List (Option Byte)} {x : Nat} (h : a.addr % widthBytes a.width = 0)
    (hin : a.block ≤ x ∧ x < a.block + 8) :
    (layBytes l (a.addr - a.block) a.bytes).getD (x - a.block) none
      = if a.addr ≤ x ∧ x < a.addr + widthBytes a.width then some (a.bytes.getD (x - a.addr) 0)
        else l.getD (x - a.block) none := by
  obtain ⟨hlow, -⟩ := Access.within_block h
  have hlen := a.bytes_length
  rw [getD_layBytes (by omega), hlen]
  by_cases hx : a.addr ≤ x ∧ x < a.addr + widthBytes a.width
  · have hk : x - a.block - (a.addr - a.block) = x - a.addr := by omega
    have hget : x - a.addr < a.bytes.length := by omega
    rw [if_pos hx, if_pos (by omega), hk, List.getElem?_eq_getElem hget, List.getD_eq_getElem _ _ hget]
  · rw [if_neg hx, if_neg (by omega)]

/-- A post merges into the line of its block, or takes an empty line. -/
theorem Bpu.post_cases {b b' : Bpu} {a : Access} (h : b.post a = some b') :
    (∃ older l newer, b.upstream = older ++ .line a.block l :: newer
      ∧ b' = { b with upstream := older ++ .line a.block (layBytes l (a.addr - a.block) a.bytes) :: newer })
    ∨ (a.block ∉ lineBlocks b.upstream ∧ b.lines < 4
      ∧ b' = { b with upstream := b.upstream ++ .line a.block (layBytes [] (a.addr - a.block) a.bytes) :: [] }) := by
  unfold Bpu.post at h
  split at h
  · next q hq =>
    cases h
    obtain ⟨older, l, newer, hold, rfl⟩ := mergeLine_eq_some hq
    exact .inl ⟨older, l, newer, hold, rfl⟩
  next hq =>
  split at h
  · next hroom =>
    cases h
    exact .inr ⟨mergeLine_eq_none hq, hroom, rfl⟩
  · cases h

/-- The posted bytes after a write: those of the write, and else those that stood. -/
theorem Bpu.post_seen {b b' : Bpu} {a : Access} (halign : a.addr % widthBytes a.width = 0)
    (hblocks : ∀ k ∈ lineBlocks b.upstream, k % 8 = 0) (hnodup : (lineBlocks b.upstream).Nodup) (h : b.post a = some b')
    (x : Nat) :
    postedByte b'.upstream x
      = if a.addr ≤ x ∧ x < a.addr + widthBytes a.width then some (a.bytes.getD (x - a.addr) 0)
        else postedByte b.upstream x := by
  obtain ⟨hlow, hhigh⟩ := Access.within_block halign
  have hblock : a.block % 8 = 0 := Nat.mul_mod_left _ _
  have happart : ∀ k, k % 8 = 0 → k ≠ a.block → (a.block ≤ x ∧ x < a.block + 8) → ¬ (k ≤ x ∧ x < k + 8) := by omega
  obtain ⟨older, l, newer, hold, rfl⟩ | ⟨hnew, -, rfl⟩ := Bpu.post_cases h <;> dsimp only
  · rw [hold, lineBlocks, List.filterMap_append, List.filterMap_cons] at hnodup
    rw [hold] at hblocks ⊢
    by_cases hin : a.block ≤ x ∧ x < a.block + 8
    · have holder : ∀ k ∈ lineBlocks older, ¬ (k ≤ x ∧ x < k + 8) := fun k hk =>
        happart k (hblocks k (by simp only [lineBlocks, List.filterMap_append]; exact List.mem_append_left _ hk))
          (fun he => (List.nodup_append.1 hnodup).2.2 k hk _ (.head _) he) hin
      have hnewer : ∀ k ∈ lineBlocks newer, ¬ (k ≤ x ∧ x < k + 8) := fun k hk =>
        happart k (hblocks k (by
          simp only [lineBlocks, List.filterMap_append]
          exact List.mem_append_right _ (List.mem_cons_of_mem _ hk)))
          (fun he => (List.nodup_cons.1 (List.nodup_append.1 hnodup).2.1).1 (he ▸ hk)) hin
      rw [overlay_line hin holder hnewer, overlay_line hin holder hnewer, laid_byte halign hin]
    · rw [overlay_line_outside hin, if_neg (by omega)]
  · have hapart : (a.block ≤ x ∧ x < a.block + 8) → ∀ k ∈ lineBlocks b.upstream, ¬ (k ≤ x ∧ x < k + 8) := fun hin k hk =>
      happart k (hblocks k hk) (fun he => hnew (he ▸ hk)) hin
    by_cases hin : a.block ≤ x ∧ x < a.block + 8
    · have hnone : postedByte b.upstream x = none := by rw [postedByte_eq, overlay_apart _ (hapart hin)]
      rw [overlay_line hin (hapart hin) (by intro k hk; cases hk), laid_byte halign hin, hnone]
      rfl
    · rw [postedByte_eq, List.foldl_append, List.foldl_cons, overlay, if_neg hin, if_neg (by omega), postedByte_eq]
      rfl

theorem Bpu.post_lines {b b' : Bpu} {a : Access} (h : b.post a = some b') : b'.lines ≤ max 4 b.lines := by
  obtain ⟨older, l, newer, hold, rfl⟩ | ⟨-, hroom, rfl⟩ := Bpu.post_cases h
  · simp [Bpu.lines, hold, UpReq.access?]
  · simp only [Bpu.lines, List.countP_append, List.countP_singleton, UpReq.access?, Option.isNone_none, if_true] at hroom ⊢
    omega

theorem Bpu.post_nodup {b b' : Bpu} {a : Access} (hnodup : (lineBlocks b.upstream).Nodup) (h : b.post a = some b') :
    (lineBlocks b'.upstream).Nodup := by
  obtain ⟨older, l, newer, hold, rfl⟩ | ⟨hnew, -, rfl⟩ := Bpu.post_cases h
  · simpa [lineBlocks, hold, UpReq.block?] using hnodup
  · simp only [lineBlocks, List.filterMap_append, List.filterMap_cons, UpReq.block?, List.filterMap_nil]
    exact List.nodup_append.2 ⟨hnodup, List.nodup_singleton _, fun k hk j hj he => hnew (by
      rw [List.mem_singleton] at hj
      rw [← hj, ← he]
      exact hk)⟩

/-- Settles O26: a post shows its own bytes over those that stood, and keeps the lines few and of distinct blocks. -/
theorem postedBytesAreSeen : Obligations.PostedBytesAreSeen := by
  intro s a b halign hblocks hnodup hpost
  have haligned : ∀ k ∈ lineBlocks s.bpu.upstream, k % 8 = 0 := fun k hk =>
    let ⟨l, hl⟩ := mem_lineBlocks.1 hk
    hblocks k l hl
  change (lineBlocks s.bpu.upstream).Nodup at hnodup
  refine ⟨fun x => ?_, Bpu.post_lines hpost, Bpu.post_nodup hnodup hpost⟩
  show (postedByte b.upstream x).getD (Memory.read s.dram x) = _
  rw [Bpu.post_seen halign haligned hnodup hpost]
  by_cases hx : a.addr ≤ x ∧ x < a.addr + widthBytes a.width
  · rw [if_pos hx, if_pos hx]
    rfl
  · rw [if_neg hx, if_neg hx]
    rfl

end Sys2Proof.Machine
end

section
/-! The decoder undoes the coder (R44 to R51, R59, R60) on a record that fits one output buffer, and O52 from it. -/

namespace Sys2Proof.Machine

/-! ### Moves of the decoder -/

/-- After `k` moves the decoder goes on from `e` as it would from `d`. -/
def Decoding.Runs (raw : Nat) (compressed : Bool) (k : Nat) (d e : Decoding) : Prop :=
  ∀ fuel, Decoding.run raw compressed false (fuel + k) d = Decoding.run raw compressed false fuel e

section
variable {raw : Nat} {compressed : Bool} {d e f : Decoding}

theorem Decoding.Runs.refl (d : Decoding) : Decoding.Runs raw compressed 0 d d := fun _ => rfl

theorem Decoding.Runs.trans {j k : Nat} (h : Decoding.Runs raw compressed j d e) (g : Decoding.Runs raw compressed k e f) :
    Decoding.Runs raw compressed (j + k) d f := fun fuel => by
  rw [show fuel + (j + k) = (fuel + k) + j by omega, h, g]

/-- The decoder pauses only with a full buffer and more to come. -/
theorem Decoding.Runs.one (hroom : d.output.length < 256 ∨ d.produced = raw) (h : d.micro raw compressed = .moved e) :
    Decoding.Runs raw compressed 1 d e := fun fuel => by
  have hgo : ¬ (Config.smallFifo ≤ d.output.length ∧ d.produced ≠ raw) := by
    rintro ⟨hfull, hmore⟩
    exact hroom.elim (fun hr => absurd hfull (Nat.not_le_of_lt hr)) hmore
  show Decoding.run raw compressed false (fuel + 1) d = _
  simp only [Decoding.run, Bool.false_eq_true, if_false, if_neg hgo, h]

end

/-! ### The decoder inside a record's chunk -/

/-- The decoder inside the only chunk of `record`, with `m` bytes made and the chunk's rest in its input. -/
def midChunk (record : List Byte) (stored : Bool) (m : Nat) (input : List Byte) (t : Token) : Decoding :=
  { decoder := { header := none, chunk := some { stored, left := input.length, size := record.length, made := m }, token := t
                 history := (record.take m).reverse, input }
    produced := m, output := record.take m, crc := crcBytes 0xFFFFFFFF (record.take m) }

section
variable {record : List Byte} {stored compressed : Bool} {m : Nat} {input : List Byte} {t : Token}

theorem midChunk_use (n : Nat) : (midChunk record stored m input t).use n = midChunk record stored m (input.drop n) t := by
  simp [Decoding.use, midChunk]

theorem midChunk_token (u : Token) : (midChunk record stored m input t).token u = midChunk record stored m input u := rfl

theorem midChunk_emit (hshort : record.length ≤ 256) {b : Byte} (hb : record[m]? = some b) :
    (midChunk record stored m input t).emit b = midChunk record stored (m + 1) input t := by
  have hm : m < record.length := (List.getElem?_eq_some_iff.1 hb).1
  have htake : record.take (m + 1) = record.take m ++ [b] := by rw [List.take_add_one, hb]; rfl
  have hhist : (b :: (record.take m).reverse).take Config.windowSize = b :: (record.take m).reverse := by
    apply List.take_of_length_le
    simp [Config.windowSize]
    omega
  simp [Decoding.emit, midChunk, htake, hhist, crcBytes]

/-- Inside a short record the decoder never pauses. -/
theorem Decoding.Runs.inside {f : Decoding} (hshort : record.length ≤ 256) (hm : m ≤ record.length)
    (h : (midChunk record stored m input t).micro record.length compressed = .moved f) :
    Decoding.Runs record.length compressed 1 (midChunk record stored m input t) f := by
  refine .one ?_ h
  rcases Nat.lt_or_ge m record.length with hlt | hge
  · refine .inl ?_
    simp [midChunk]
    omega
  · exact .inr (Nat.le_antisymm hm hge)

/-- A token with `n` bytes to go; `none` once they are made. -/
def tokenLeft (of : Nat → Token) (n : Nat) : Token := if n = 0 then .none else of n

end

section
variable {record : List Byte} {stored compressed : Bool}

/-- Literals are copied from the input. -/
theorem runs_literals (hshort : record.length ≤ 256) : ∀ (bytes rest : List Byte) (m : Nat),
    (∀ i < bytes.length, record[m + i]? = bytes[i]?) →
    Decoding.Runs record.length compressed bytes.length
      (midChunk record stored m (bytes ++ rest) (tokenLeft .literal bytes.length))
      (midChunk record stored (m + bytes.length) rest .none)
  | [], rest, m, _ => .refl _
  | b :: bytes, rest, m, h => by
    have hb : record[m]? = some b := h 0 (Nat.succ_pos _)
    have hm : m < record.length := (List.getElem?_eq_some_iff.1 hb).1
    have htail : ∀ i < bytes.length, record[m + 1 + i]? = bytes[i]? := fun i hi => by
      rw [show m + 1 + i = m + (i + 1) by omega]
      exact h (i + 1) (Nat.succ_lt_succ hi)
    have hmove : (midChunk record stored m (b :: bytes ++ rest) (.literal (bytes.length + 1))).micro record.length compressed
        = .moved (midChunk record stored (m + 1) (bytes ++ rest) (tokenLeft .literal bytes.length)) := by
      show Micro.moved ((((midChunk record stored m (b :: bytes ++ rest) _).use 1).emit b).token _) = _
      rw [midChunk_use, midChunk_emit hshort hb, midChunk_token]
      rfl
    have hrest := runs_literals hshort bytes rest (m + 1) htail
    have hall := (Decoding.Runs.inside hshort hm.le hmove).trans hrest
    simpa [tokenLeft, Nat.add_assoc, Nat.add_comm 1] using hall

/-- A repeat makes its byte again and again. -/
theorem runs_repeat (hshort : record.length ≤ 256) (b : Byte) (rest : List Byte) : ∀ (n m : Nat),
    (∀ i < n, record[m + i]? = some b) →
    Decoding.Runs record.length compressed n (midChunk record stored m rest (tokenLeft (.repeat_ b) n))
      (midChunk record stored (m + n) rest .none)
  | 0, m, _ => .refl _
  | n + 1, m, h => by
    have hb : record[m]? = some b := h 0 (Nat.succ_pos _)
    have hm : m < record.length := (List.getElem?_eq_some_iff.1 hb).1
    have hmove : (midChunk record stored m rest (.repeat_ b (n + 1))).micro record.length compressed
        = .moved (midChunk record stored (m + 1) rest (tokenLeft (.repeat_ b) n)) := by
      show Micro.moved (((midChunk record stored m rest _).emit b).token _) = _
      rw [midChunk_emit hshort hb, midChunk_token]
      rfl
    have hrest := runs_repeat hshort b rest n (m + 1)
      (fun i hi => by rw [show m + 1 + i = m + (i + 1) by omega]; exact h (i + 1) (by omega))
    have hall := (Decoding.Runs.inside hshort hm.le hmove).trans hrest
    simpa [tokenLeft, Nat.add_assoc, Nat.add_comm 1] using hall

/-- A copy makes the bytes that stand its offset before. -/
theorem runs_copy (hshort : record.length ≤ 256) {o : Nat} (ho : 1 ≤ o) (rest : List Byte) : ∀ (n m : Nat),
    o ≤ m → m + n ≤ record.length → (∀ i < n, record[m + i]? = record[m + i - o]?) →
    Decoding.Runs record.length compressed n (midChunk record stored m rest (tokenLeft (.copy o) n))
      (midChunk record stored (m + n) rest .none)
  | 0, m, _, _, _ => .refl _
  | n + 1, m, hom, hin, h => by
    have hm : m < record.length := by omega
    have hb : record[m]? = some ((record.take m).reverse.getD (o - 1) 0) := by
      have hsame : record[m]? = record[m - o]? := h 0 (Nat.succ_pos _)
      have hlen : (record.take m).length = m := List.length_take_of_le hm.le
      have hidx : m - 1 - (o - 1) = m - o := by omega
      rw [hsame, List.getD_eq_getElem?_getD, List.getElem?_reverse (by omega), hlen, hidx,
        List.getElem?_take_of_lt (by omega), List.getElem?_eq_getElem (by omega)]
      rfl
    have hmove : (midChunk record stored m rest (.copy o (n + 1))).micro record.length compressed
        = .moved (midChunk record stored (m + 1) rest (tokenLeft (.copy o) n)) := by
      show Micro.moved (((midChunk record stored m rest _).emit ((record.take m).reverse.getD (o - 1) 0)).token _) = _
      rw [midChunk_emit hshort hb, midChunk_token]
      rfl
    have hrest := runs_copy hshort ho rest n (m + 1) (by omega) (by omega)
      (fun i hi => by rw [show m + 1 + i = m + (i + 1) by omega]; exact h (i + 1) (by omega))
    have hall := (Decoding.Runs.inside hshort hm.le hmove).trans hrest
    simpa [tokenLeft, Nat.add_assoc, Nat.add_comm 1] using hall

end

/-! ### Tokens -/

/-- The payload spells the first `m` bytes of the record. -/
inductive Spells (record : List Byte) : List Byte → Nat → Prop
  | nil : Spells record [] 0
  | literal {p : List Byte} {m : Nat} {bytes : List Byte} : Spells record p m → 1 ≤ bytes.length → bytes.length ≤ 64 →
      (∀ i < bytes.length, record[m + i]? = bytes[i]?) →
      Spells record (p ++ BitVec.ofNat 8 (bytes.length - 1) :: bytes) (m + bytes.length)
  | repeat_ {p : List Byte} {m n : Nat} {b : Byte} : Spells record p m → 3 ≤ n → n ≤ 66 →
      (∀ i < n, record[m + i]? = some b) → Spells record (p ++ repeatToken b n) (m + n)
  | copy {p : List Byte} {m n o : Nat} : Spells record p m → 3 ≤ n → n ≤ 265 → 1 ≤ o → o ≤ m → o ≤ 4096 →
      m + n ≤ record.length → (∀ i < n, record[m + i]? = record[m + i - o]?) →
      Spells record (p ++ copyToken n o) (m + n)

theorem Spells.le {record p : List Byte} {m : Nat} (h : Spells record p m) : m ≤ record.length := by
  cases h with
  | nil => exact Nat.zero_le _
  | @literal _ m bytes _ hone _ hbytes =>
    have hlast : bytes.length - 1 < bytes.length := by omega
    have := (List.getElem?_eq_some_iff.1 ((hbytes _ hlast).trans (List.getElem?_eq_getElem hlast))).1
    omega
  | @repeat_ _ m n _ _ hlow _ hbytes =>
    have := (List.getElem?_eq_some_iff.1 (hbytes (n - 1) (by omega))).1
    omega
  | copy _ _ _ _ _ _ hin _ => exact hin

theorem Spells.payload_pos {record p : List Byte} {m : Nat} (h : Spells record p m) (hm : 1 ≤ m) : 1 ≤ p.length := by
  cases h with
  | nil => exact absurd hm (by decide)
  | literal =>
    rw [List.length_append, List.length_cons]
    omega
  | repeat_ => simp [repeatToken]
  | @copy _ _ n o =>
    unfold copyToken
    dsimp only
    split <;> simp

section
variable {record : List Byte} {compressed : Bool} {m : Nat} {rest : List Byte}

/-- With a token due the decoder begins one. -/
theorem micro_begins {x : Byte} {input : List Byte} :
    (midChunk record false m (x :: input) .none).micro record.length compressed
      = (midChunk record false m (x :: input) .none).beginToken
          { stored := false, left := input.length + 1, size := record.length, made := m } := by
  simp [Decoding.micro, midChunk]

theorem begins_literal {bytes : List Byte} (hone : 1 ≤ bytes.length) (hmany : bytes.length ≤ 64)
    (hin : m + bytes.length ≤ record.length) :
    (midChunk record false m (BitVec.ofNat 8 (bytes.length - 1) :: bytes ++ rest) .none).micro record.length compressed
      = .moved (midChunk record false m (bytes ++ rest) (tokenLeft .literal bytes.length)) := by
  have hv : (BitVec.ofNat 8 (bytes.length - 1)).toNat = bytes.length - 1 := by
    rw [BitVec.toNat_ofNat]
    omega
  have hlen : bytes.length - 1 + 1 = bytes.length := by omega
  have hroom : ¬ ((bytes ++ rest).length + 1 < bytes.length - 1 + 2 ∨ decide (m + bytes.length ≤ record.length) = false) := by
    rw [List.length_append]
    simp only [hin, decide_true, Bool.true_eq_false, or_false]
    omega
  rw [List.cons_append, micro_begins]
  simp only [Decoding.beginToken, midChunk, hv, hlen]
  rw [if_pos (by omega), if_neg hroom, tokenLeft, if_neg (by omega)]
  rfl

theorem begins_repeat {b : Byte} {n : Nat} (hlow : 3 ≤ n) (hhigh : n ≤ 66) (hin : m + n ≤ record.length) :
    (midChunk record false m (repeatToken b n ++ rest) .none).micro record.length compressed
      = .moved (midChunk record false m rest (tokenLeft (.repeat_ b) n)) := by
  have hv : (BitVec.ofNat 8 (64 + (n - 3))).toNat = 64 + (n - 3) := by
    rw [BitVec.toNat_ofNat]
    omega
  have hlen : 64 + (n - 3) - 64 + 3 = n := by omega
  have hroom : ¬ ((b :: rest).length + 1 < 2 ∨ decide (m + n ≤ record.length) = false) := by
    simp only [hin, List.length_cons, decide_true, Bool.true_eq_false, or_false]
    omega
  rw [repeatToken, List.cons_append, List.cons_append, List.nil_append, micro_begins]
  simp only [Decoding.beginToken, midChunk, hv, hlen]
  rw [if_neg (by omega), if_pos (by omega), if_neg hroom, tokenLeft, if_neg (by omega)]
  rfl

/-- The two operand bytes of a copy hold its offset. -/
theorem copy_offset {o : Nat} (ho : 1 ≤ o) :
    (o - 1) / 256 * 256 + (BitVec.ofNat 8 ((o - 1) % 256)).toNat + 1 = o := by
  rw [BitVec.toNat_ofNat]
  omega

theorem begins_copy {o n : Nat} (hlow : 3 ≤ n) (hhigh : n ≤ 265) (ho : 1 ≤ o) (hom : o ≤ m) (hfar : o ≤ 4096)
    (hin : m + n ≤ record.length) :
    (midChunk record false m (copyToken n o ++ rest) .none).micro record.length compressed
      = .moved (midChunk record false m rest (tokenLeft (.copy o) n)) := by
  have hoff := copy_offset ho
  have hfits : decide (m + n ≤ record.length) = true := decide_eq_true hin
  have hgo : ¬ (m < o ∨ decide (m + n ≤ record.length) = false) := by
    simp only [hfits, Bool.true_eq_false, or_false]
    omega
  rw [tokenLeft, if_neg (by omega)]
  unfold copyToken
  dsimp only
  by_cases hshort : n ≤ 9
  · have hv : (BitVec.ofNat 8 (128 + 16 * (n - 3) + (o - 1) / 256)).toNat = 128 + 16 * (n - 3) + (o - 1) / 256 := by
      rw [BitVec.toNat_ofNat]
      omega
    have hl : (128 + 16 * (n - 3) + (o - 1) / 256 - 128) / 16 = n - 3 := by omega
    have ho16 : (128 + 16 * (n - 3) + (o - 1) / 256 - 128) % 16 = (o - 1) / 256 := by omega
    rw [if_pos hshort, List.cons_append, List.cons_append, List.nil_append, micro_begins]
    simp only [Decoding.beginToken, midChunk, hv, hl, ho16]
    rw [if_neg (by omega), if_neg (by omega), if_neg (by rw [if_neg (by omega), List.length_cons]; omega)]
    split
    · next h7 _ => omega
    · next h7 _ => omega
    · next hb _ _ =>
      cases hb
      simp only [Nat.sub_add_cancel hlow, hoff]
      rw [if_neg hgo]
      rfl
    · next hnil _ => cases hnil
  · have hv : (BitVec.ofNat 8 (128 + 16 * 7 + (o - 1) / 256)).toNat = 128 + 16 * 7 + (o - 1) / 256 := by
      rw [BitVec.toNat_ofNat]
      omega
    have hl : (128 + 16 * 7 + (o - 1) / 256 - 128) / 16 = 7 := by omega
    have ho16 : (128 + 16 * 7 + (o - 1) / 256 - 128) % 16 = (o - 1) / 256 := by omega
    have hlen : 10 + (BitVec.ofNat 8 (n - 10)).toNat = n := by
      rw [BitVec.toNat_ofNat]
      omega
    rw [if_neg hshort, List.cons_append, List.cons_append, List.cons_append, List.nil_append, micro_begins]
    simp only [Decoding.beginToken, midChunk, hv, hl, ho16, hoff, hlen]
    rw [if_neg (by omega), if_neg (by omega), if_neg (by simp only [if_true, List.length_cons]; omega), if_neg hgo]
    rfl

end

/-! ### A chunk decoded -/

section
variable {record : List Byte} {compressed : Bool}

/-- The tokens that spell a part of the record make it, in at most two moves a byte. -/
theorem Spells.runs (hshort : record.length ≤ 256) {p : List Byte} {m : Nat} (h : Spells record p m) :
    ∀ rest, ∃ k ≤ 2 * m, Decoding.Runs record.length compressed k (midChunk record false 0 (p ++ rest) .none)
      (midChunk record false m rest .none) := by
  induction h with
  | nil => exact fun rest => ⟨0, Nat.zero_le _, .refl _⟩
  | @literal p m bytes hp hone hmany hbytes ih =>
    intro rest
    obtain ⟨k, hk, hruns⟩ := ih (BitVec.ofNat 8 (bytes.length - 1) :: bytes ++ rest)
    have hin := (Spells.literal hp hone hmany hbytes).le
    have hstart := Decoding.Runs.inside hshort (by omega)
      (begins_literal (compressed := compressed) (rest := rest) hone hmany hin)
    rw [List.append_assoc]
    exact ⟨_, by omega, (hruns.trans hstart).trans (runs_literals hshort bytes rest m hbytes)⟩
  | @repeat_ p m n b hp hlow hhigh hbytes ih =>
    intro rest
    obtain ⟨k, hk, hruns⟩ := ih (repeatToken b n ++ rest)
    have hin := (Spells.repeat_ hp hlow hhigh hbytes).le
    have hstart := Decoding.Runs.inside hshort (by omega)
      (begins_repeat (compressed := compressed) (rest := rest) (b := b) hlow hhigh hin)
    rw [List.append_assoc]
    exact ⟨_, by omega, (hruns.trans hstart).trans (runs_repeat hshort b rest n m hbytes)⟩
  | @copy p m n o hp hlow hhigh ho hom hfar hin hbytes ih =>
    intro rest
    obtain ⟨k, hk, hruns⟩ := ih (copyToken n o ++ rest)
    have hstart := Decoding.Runs.inside hshort (by omega)
      (begins_copy (compressed := compressed) (rest := rest) hlow hhigh ho hom hfar hin)
    rw [List.append_assoc]
    exact ⟨_, by omega, (hruns.trans hstart).trans (runs_copy hshort ho rest n m hom hin hbytes)⟩

theorem getElem?_of_drop {l rest : List Byte} {k : Nat} {b : Byte} (h : l.drop k = b :: rest) : l[k]? = some b := by
  have hget := List.getElem?_drop (xs := l) (i := k) (j := 0)
  rw [h] at hget
  exact hget.symm

/-- A STORED chunk's payload is the record. -/
theorem runs_stored (hshort : record.length ≤ 256) : ∀ (bytes : List Byte) (m : Nat), record.drop m = bytes → m ≤ record.length →
    Decoding.Runs record.length compressed bytes.length (midChunk record true m bytes .none)
      (midChunk record true record.length [] .none)
  | [], m, h, hm => by
    have hall : m = record.length := Nat.le_antisymm hm (List.drop_eq_nil_iff.1 h)
    rw [hall]
    exact .refl _
  | b :: bytes, m, h, hm => by
    have hb : record[m]? = some b := getElem?_of_drop h
    have hlt : m < record.length := (List.getElem?_eq_some_iff.1 hb).1
    have htail : record.drop (m + 1) = bytes := by
      have h1 := congrArg List.tail h
      rwa [List.tail_drop] at h1
    have hmove : (midChunk record true m (b :: bytes) .none).micro record.length compressed
        = .moved (midChunk record true (m + 1) bytes .none) := by
      show Micro.moved (((midChunk record true m (b :: bytes) .none).use 1).emit b) = _
      rw [midChunk_use, midChunk_emit hshort hb]
      rfl
    have hrest := runs_stored hshort bytes (m + 1) htail hlt
    rw [List.length_cons, Nat.add_comm]
    exact (Decoding.Runs.inside hshort hm hmove).trans hrest

/-- The decoder at the start of a record. -/
def freshDecoding (input : List Byte) : Decoding :=
  { decoder := { Decoder.empty with input }, produced := 0, output := [], crc := 0xFFFFFFFF }

/-- The decoder with the first byte of a chunk header. -/
def headerBegun (lo : Byte) (input : List Byte) : Decoding :=
  { decoder := { Decoder.empty with header := some lo, input }, produced := 0, output := [], crc := 0xFFFFFFFF }

/-- The two bytes of a chunk header open its chunk. -/
theorem runs_header (hone : 1 ≤ record.length) {v : Nat} (hv : v < 65536) {rest : List Byte} {e : Decoding}
    (h : (headerBegun (BitVec.ofNat 8 (v % 256)) rest).openChunk record.length compressed v = .moved e) :
    Decoding.Runs record.length compressed 2 (freshDecoding (toLe 2 v ++ rest)) e := by
  have hnot : (0 : Nat) ≠ record.length := by omega
  have hval : (BitVec.ofNat 8 (v % 256)).toNat + 256 * (BitVec.ofNat 8 (v / 256 % 256)).toNat = v := by
    rw [BitVec.toNat_ofNat, BitVec.toNat_ofNat]
    omega
  have hfirst : (freshDecoding (toLe 2 v ++ rest)).micro record.length compressed
      = .moved (headerBegun (BitVec.ofNat 8 (v % 256)) (BitVec.ofNat 8 (v / 256 % 256) :: rest)) := if_neg hnot
  have hsecond : (headerBegun (BitVec.ofNat 8 (v % 256)) (BitVec.ofNat 8 (v / 256 % 256) :: rest)).micro record.length compressed
      = .moved e := by
    refine (if_neg hnot).trans ?_
    show Decoding.openChunk _ record.length compressed (_ + 256 * _) = _
    rw [hval, ← h]
    rfl
  exact (Decoding.Runs.one (.inl (by show 0 < 256; decide)) hfirst).trans (.one (.inl (by show 0 < 256; decide)) hsecond)

theorem runs_header_stored (hone : 1 ≤ record.length) (hshort : record.length ≤ 256) :
    Decoding.Runs record.length compressed 2 (freshDecoding (storedChunk record)) (midChunk record true 0 record .none) := by
  refine runs_header hone (by omega) ?_
  have hmin : min Config.chunkSize (record.length - 0) = record.length := by
    simp only [Config.chunkSize]
    omega
  have hsub : record.length + 32768 - 32768 = record.length := by omega
  unfold Decoding.openChunk
  simp only [headerBegun, hmin, hsub, if_true]
  rw [if_pos (by omega)]
  rfl

theorem runs_header_compressed (hone : 1 ≤ record.length) (hshort : record.length ≤ 256) {payload : List Byte}
    (hsome : 1 ≤ payload.length) (hfew : payload.length ≤ record.length) :
    Decoding.Runs record.length true 2 (freshDecoding (toLe 2 payload.length ++ payload))
      (midChunk record false 0 payload .none) := by
  refine runs_header hone (by omega) ?_
  have hmin : min Config.chunkSize (record.length - 0) = record.length := by
    simp only [Config.chunkSize]
    omega
  unfold Decoding.openChunk
  simp only [headerBegun, hmin]
  rw [if_neg (by omega), if_pos ⟨trivial, hsome, hfew⟩]
  rfl

/-- The decoder with the record's only chunk closed. -/
def chunkClosed (record : List Byte) : Decoding :=
  { decoder := { Decoder.empty with history := record.reverse }
    produced := record.length, output := record, crc := crcBytes 0xFFFFFFFF record }

/-- With the chunk made the decoder closes it and the record is over. -/
theorem run_made (stored : Bool) (fuel : Nat) :
    (Decoding.run record.length compressed false (fuel + 2) (midChunk record stored record.length [] .none)).1
      = chunkClosed record := by
  have hclose : (midChunk record stored record.length [] .none).micro record.length compressed
      = .moved (chunkClosed record) := by
    simp [Decoding.micro, midChunk, chunkClosed, Decoder.empty]
  have hover : (chunkClosed record).micro record.length compressed = .over := if_pos rfl
  have hruns := Decoding.Runs.one (raw := record.length) (d := midChunk record stored record.length [] .none) (.inr rfl) hclose
    (fuel + 1)
  have hgo : ¬ (Config.smallFifo ≤ (chunkClosed record).output.length ∧ (chunkClosed record).produced ≠ record.length) :=
    fun h => h.2 rfl
  rw [hruns]
  simp only [Decoding.run, Bool.false_eq_true, if_false, if_neg hgo, hover]

/-- A run through the chunk gives the record. -/
theorem run_gives {k : Nat} {d : Decoding} {stored : Bool} (hk : k ≤ 1022)
    (h : Decoding.Runs record.length compressed k d (midChunk record stored record.length [] .none)) :
    (Decoding.run record.length compressed false 1024 d).1 = chunkClosed record := by
  rw [show 1024 = (1022 - k + 2) + k by omega, h]
  exact run_made stored _

end

/-! ### The matcher's walk -/

/-- The walk over a record that is one chunk. -/
def wholeRecord (record : List Byte) : WalkInput := { bytes := record, base := 0, stop := record.length }

/-- The payload spells the record's first `m` bytes, and the literals that wait are the bytes up to the walk's position. -/
structure Walk.Tracks (record : List Byte) (w : Walk) (m : Nat) : Prop where
  spells : Spells record w.payload m
  pending : ∀ i < w.literals.length, record[m + i]? = w.literals[i]?
  place : m + w.literals.length = w.at_
  few : w.literals.length ≤ 64

/-- The table holds positions before the walk's. -/
def Walk.Behind (w : Walk) : Prop := ∀ e ∈ w.table, e.2 < w.at_

@[simp] theorem Walk.flush_at (w : Walk) : w.flush.at_ = w.at_ := by unfold Walk.flush; split <;> rfl
@[simp] theorem Walk.flush_table (w : Walk) : w.flush.table = w.table := by unfold Walk.flush; split <;> rfl
@[simp] theorem Walk.flush_literals (w : Walk) : w.flush.literals = [] := by
  unfold Walk.flush
  split
  · next h => exact List.isEmpty_iff.1 h
  · rfl

theorem Walk.Tracks.at_le {record : List Byte} {w : Walk} {m : Nat} (h : w.Tracks record m) : w.at_ ≤ record.length := by
  have hm := h.spells.le
  rw [← h.place]
  rcases Nat.eq_zero_or_pos w.literals.length with hnone | hsome
  · omega
  · have hlast : w.literals.length - 1 < w.literals.length := by omega
    have := (List.getElem?_eq_some_iff.1 ((h.pending _ hlast).trans (List.getElem?_eq_getElem hlast))).1
    omega

/-- A flush spells the literals that waited. -/
theorem Walk.Tracks.flush {record : List Byte} {w : Walk} {m : Nat} (h : w.Tracks record m) : w.flush.Tracks record w.at_ := by
  refine ⟨?_, ?_, ?_, ?_⟩
  · unfold Walk.flush
    split
    · next hnone =>
      have hat : m = w.at_ := by
        have := h.place
        rwa [List.isEmpty_iff.1 hnone, List.length_nil, Nat.add_zero] at this
      exact hat ▸ h.spells
    · next hsome =>
      have hone : 1 ≤ w.literals.length := List.length_pos_iff.2 (fun h0 => hsome (List.isEmpty_iff.2 h0))
      rw [← h.place]
      exact .literal h.spells hone h.few h.pending
  · simp
  · simp
  · simp

/-- A literal joins those that wait. -/
theorem Walk.Tracks.literal {record : List Byte} {w : Walk} {m : Nat} (h : w.Tracks record m) {b : Byte}
    (hb : record[w.at_]? = some b) : ∃ k, (w.literal b).Tracks record k := by
  have hroom : ∃ (k : Nat) (v : Walk), v.Tracks record k ∧ v.literals.length < 64 ∧ v.at_ = w.at_ ∧
      w.literal b = { v with literals := v.literals ++ [b], at_ := v.at_ + 1 } := by
    by_cases hfull : 64 ≤ w.literals.length
    · exact ⟨w.at_, w.flush, h.flush, by simp, by simp, by unfold Walk.literal; rw [if_pos hfull]⟩
    · exact ⟨m, w, h, by omega, rfl, by unfold Walk.literal; rw [if_neg hfull]⟩
  obtain ⟨k, v, hv, hlen, hat, hlit⟩ := hroom
  rw [hlit]
  refine ⟨k, hv.spells, ?_, ?_, ?_⟩
  · intro i hi
    simp only [List.length_append, List.length_singleton] at hi
    rcases Nat.lt_or_ge i v.literals.length with hold | hnew
    · rw [List.getElem?_append_left hold]
      exact hv.pending i hold
    · have hlast : i = v.literals.length := by omega
      rw [hlast, hv.place, hat, hb, List.getElem?_concat_length]
  · simp only [List.length_append, List.length_singleton]
    have := hv.place
    omega
  · simp only [List.length_append, List.length_singleton]
    omega

@[simp] theorem Walk.literal_at (w : Walk) (b : Byte) : (w.literal b).at_ = w.at_ + 1 := by
  unfold Walk.literal
  dsimp only
  split
  · rw [Walk.flush_at]
  · rfl

@[simp] theorem Walk.literal_table (w : Walk) (b : Byte) : (w.literal b).table = w.table := by
  unfold Walk.literal
  dsimp only
  split
  · rw [Walk.flush_table]
  · rfl

/-! ### The matcher's finds -/

theorem runOf_le (b : Byte) (l : List Byte) : runOf b l ≤ l.length := (List.takeWhile_prefix _).length_le

theorem getElem?_of_runOf {b : Byte} : ∀ {l : List Byte} {i : Nat}, i < runOf b l → l[i]? = some b
  | [], i, h => absurd h (Nat.not_lt_zero _)
  | x :: l, i, h => by
    unfold runOf at h
    rw [List.takeWhile_cons] at h
    split at h
    · next hx =>
      cases i with
      | zero => exact congrArg some (eq_of_beq hx)
      | succ i => exact getElem?_of_runOf (l := l) (Nat.lt_of_succ_lt_succ h)
    · exact absurd h (Nat.not_lt_zero _)

theorem lanesEqual_le : ∀ (l r : List Byte), lanesEqual l r ≤ l.length
  | [], _ => Nat.le_of_eq (by unfold lanesEqual; rfl)
  | _ :: _, [] => by simp [lanesEqual]
  | a :: l, b :: r => by
    unfold lanesEqual
    split
    · exact Nat.succ_le_succ (lanesEqual_le l r)
    · exact Nat.zero_le _

theorem getElem?_of_lanesEqual : ∀ {l r : List Byte} {i : Nat}, i < lanesEqual l r → l[i]? = r[i]?
  | [], _, _, h => by simp [lanesEqual] at h
  | _ :: _, [], _, h => by simp [lanesEqual] at h
  | a :: l, b :: r, i, h => by
    unfold lanesEqual at h
    split at h
    · next hab =>
      cases i with
      | zero => exact congrArg some hab
      | succ i => exact getElem?_of_lanesEqual (l := l) (r := r) (Nat.lt_of_succ_lt_succ h)
    · exact absurd h (Nat.not_lt_zero _)

theorem mem_tableSet {e : Nat × Nat} {h p : Nat} : ∀ {t : List (Nat × Nat)}, e ∈ tableSet t h p → e ∈ t ∨ e = (h, p)
  | [], he => .inr (List.mem_singleton.1 he)
  | (k, v) :: t, he => by
    unfold tableSet at he
    split at he
    · exact (List.mem_cons.1 he).symm
    split at he
    · exact (List.mem_cons.1 he).symm.imp_left (List.mem_cons_of_mem _)
    · obtain rfl | hin := List.mem_cons.1 he
      · exact .inl (.head _)
      · exact (mem_tableSet hin).imp_left (List.mem_cons_of_mem _)

theorem mem_of_tableGet {t : List (Nat × Nat)} {h q : Nat} (hq : tableGet t h = some q) : ∃ e ∈ t, e.2 = q := by
  obtain ⟨e, he, hsnd⟩ := Option.map_eq_some_iff.1 hq
  exact ⟨e, List.mem_of_find?_eq_some he, hsnd⟩

/-! ### A step of the walk -/

section
variable {record : List Byte} {w : Walk} {m : Nat}

/-- What is left of the record where a step looks. -/
theorem wholeRecord_ahead :
    ((wholeRecord record).tail w.at_).take ((wholeRecord record).stop - w.at_) = record.drop w.at_ := by
  show (record.drop (w.at_ - 0)).take (record.length - w.at_) = _
  rw [Nat.sub_zero, List.take_of_length_le (by rw [List.length_drop])]

/-- A repeat run found at the walk's position. -/
theorem Walk.Tracks.repeated (h : w.Tracks record m) {b : Byte} {rest : List Byte}
    (hd : record.drop w.at_ = b :: b :: b :: rest) {n : Nat} (hn : n = runOf b ((b :: b :: b :: rest).take 66)) :
    ({ w.flush with payload := w.flush.payload ++ repeatToken b n, at_ := w.at_ + n } : Walk).Tracks record (w.at_ + n)
      ∧ 3 ≤ n := by
  have hlow : 3 ≤ n := by simp [hn, runOf]
  have hhigh : n ≤ 66 := by
    have := runOf_le b ((b :: b :: b :: rest).take 66)
    rw [← hn, List.length_take] at this
    omega
  have hbytes : ∀ i < n, record[w.at_ + i]? = some b := fun i hi => by
    have hfind := getElem?_of_runOf (hn ▸ hi)
    rwa [List.getElem?_take_of_lt (by omega), ← hd, List.getElem?_drop] at hfind
  refine ⟨⟨.repeat_ h.flush.spells hlow hhigh hbytes, ?_, ?_, ?_⟩, hlow⟩ <;> simp

/-- A copy found at the walk's position. -/
theorem Walk.Tracks.copied (h : w.Tracks record m) {q : Nat} (hq : q < w.at_) (hnear : w.at_ - q ≤ Config.windowSize)
    {b0 b1 b2 : Byte} {rest : List Byte} (hd : record.drop w.at_ = b0 :: b1 :: b2 :: rest)
    (hthree : (record.drop q).take 3 = [b0, b1, b2]) {n : Nat}
    (hn : n = lanesEqual ((b0 :: b1 :: b2 :: rest).take 265) (record.drop q)) :
    ({ w.flush with payload := w.flush.payload ++ copyToken n (w.at_ - q), at_ := w.at_ + n } : Walk).Tracks record (w.at_ + n)
      ∧ 3 ≤ n := by
  have hlen : (b0 :: b1 :: b2 :: rest).length = record.length - w.at_ := by rw [← hd, List.length_drop]
  have hlow : 3 ≤ n := by
    obtain ⟨more, hmore⟩ : ∃ more, record.drop q = b0 :: b1 :: b2 :: more :=
      ⟨(record.drop q).drop 3, by rw [← List.take_append_drop 3 (record.drop q), hthree]; simp⟩
    rw [hn, hmore]
    simp [lanesEqual]
  have hle := lanesEqual_le ((b0 :: b1 :: b2 :: rest).take 265) (record.drop q)
  rw [← hn, List.length_take, hlen] at hle
  have hbytes : ∀ i < n, record[w.at_ + i]? = record[w.at_ + i - (w.at_ - q)]? := fun i hi => by
    have hfind := getElem?_of_lanesEqual (hn ▸ hi)
    rw [List.getElem?_take_of_lt (by omega), ← hd, List.getElem?_drop, List.getElem?_drop] at hfind
    rw [hfind]
    congr 1
    omega
  have hspells := Spells.copy h.flush.spells hlow (by omega) (by omega) (by omega) hnear (by omega) hbytes
  refine ⟨⟨hspells, ?_, ?_, ?_⟩, hlow⟩ <;> simp

/-- A step tracks the record, keeps its table behind and moves on. -/
theorem walkStep_tracks (h : w.Tracks record m) (hb : w.Behind) (hlt : w.at_ < record.length) :
    (∃ k, (walkStep (wholeRecord record) w).Tracks record k) ∧ (walkStep (wholeRecord record) w).Behind
      ∧ w.at_ < (walkStep (wholeRecord record) w).at_ := by
  have hset : ∀ (key : Nat) {p : Nat}, w.at_ < p → ∀ e ∈ tableSet w.table key w.at_, e.2 < p := fun _ _ hat e he => by
    obtain hold | rfl := mem_tableSet he
    · exact (hb e hold).trans hat
    · exact hat
  unfold walkStep
  dsimp only
  rw [wholeRecord_ahead]
  split
  · next b0 b1 b2 rest hd =>
    have hb0 : record[w.at_]? = some b0 := getElem?_of_drop hd
    split
    · next heq =>
      obtain ⟨rfl, rfl⟩ := heq
      obtain ⟨htracks, hlow⟩ := h.repeated hd rfl
      have hmove : w.at_ < w.at_ + runOf b0 ((b0 :: b0 :: b0 :: rest).take 66) :=
        Nat.lt_add_of_pos_right (Nat.zero_lt_of_lt hlow)
      exact ⟨⟨_, htracks⟩, fun e he => (hb e (w.flush_table ▸ he)).trans hmove, hmove⟩
    · generalize hash3 b0 b1 b2 = key
      have htable : ({ w with table := tableSet w.table key w.at_ } : Walk).Tracks record m :=
        ⟨h.spells, h.pending, h.place, h.few⟩
      have hlit : (∃ k, (({ w with table := tableSet w.table key w.at_ } : Walk).literal b0).Tracks record k)
          ∧ (({ w with table := tableSet w.table key w.at_ } : Walk).literal b0).Behind
          ∧ w.at_ < (({ w with table := tableSet w.table key w.at_ } : Walk).literal b0).at_ := by
        refine ⟨htable.literal hb0, fun e he => ?_, by simp⟩
        rw [Walk.literal_table] at he
        rw [Walk.literal_at]
        exact hset key (Nat.lt_succ_self _) e he
      split
      · next q hq =>
        split
        · next hfound =>
          obtain ⟨e, he, rfl⟩ := mem_of_tableGet hq
          obtain ⟨htracks, hlow⟩ := htable.copied (hb e he) hfound.1 hd hfound.2 rfl
          have hmove : w.at_ < w.at_ + lanesEqual ((b0 :: b1 :: b2 :: rest).take 265) (record.drop e.2) :=
            Nat.lt_add_of_pos_right (Nat.zero_lt_of_lt hlow)
          refine ⟨⟨_, htracks⟩, fun x hx => ?_, hmove⟩
          have hx' : x ∈ tableSet w.table key w.at_ := by simpa using hx
          exact hset key hmove x hx'
        · exact hlit
      · exact hlit
  · next b0 rest _ hd =>
    have hb0 : record[w.at_]? = some b0 := getElem?_of_drop hd
    refine ⟨h.literal hb0, fun e he => ?_, by simp⟩
    rw [Walk.literal_table] at he
    rw [Walk.literal_at]
    exact (hb e he).trans (Nat.lt_succ_self _)
  · next hd => exact absurd (List.drop_eq_nil_iff.1 hd) (Nat.not_le_of_lt hlt)

/-- The walk to the end spells the record. -/
theorem walkFrom_spells : ∀ (fuel : Nat) {w : Walk} {m : Nat}, w.Tracks record m → w.Behind → record.length ≤ w.at_ + fuel →
    Spells record (walkFrom (wholeRecord record) fuel w).payload record.length
  | 0, w, m, h, _, hend => by
    have hat : w.at_ = record.length := Nat.le_antisymm h.at_le hend
    exact hat ▸ h.flush.spells
  | fuel + 1, w, m, h, hb, hend => by
    unfold walkFrom
    split
    · next hstop =>
      have hat : w.at_ = record.length := Nat.le_antisymm h.at_le hstop
      exact hat ▸ h.flush.spells
    · next hgo =>
      obtain ⟨⟨k, hk⟩, hb', hmoved⟩ := walkStep_tracks h hb (Nat.lt_of_not_le hgo)
      exact walkFrom_spells fuel hk hb' (by omega)

end

/-! ### The coder's output -/

/-- What the coder makes of a short record: STORED, or the tokens that spell it. -/
theorem codeChunk_cases (compress : Bool) (record : List Byte) :
    (codeChunk compress [] 0 [] record).output = storedChunk record ∨
    (compress = true ∧ ∃ payload : List Byte, payload.length ≤ record.length ∧ Spells record payload record.length ∧
      (codeChunk compress [] 0 [] record).output = toLe 2 payload.length ++ payload) := by
  unfold codeChunk
  by_cases hcomp : compress = true
  · have hinput : ({ bytes := [] ++ record, base := 0 - [].length (α := Byte), stop := 0 + record.length } : WalkInput)
        = wholeRecord record := by
      simp [wholeRecord]
    rw [if_pos hcomp]
    dsimp only
    rw [hinput]
    split
    · next hfew =>
      have hstart : Walk.Tracks record { at_ := 0, table := [], literals := [], payload := [] } 0 :=
        ⟨.nil, by simp, rfl, by simp⟩
      exact .inr ⟨hcomp, _, hfew, walkFrom_spells record.length hstart (by simp [Walk.Behind]) (by simp), rfl⟩
    · exact .inl rfl
  · rw [if_neg hcomp]
    exact .inl rfl

/-- Settles O52: the decoder opens the chunk and goes through its payload, stored or spelled by the matcher's walk. -/
theorem shortRecordsSurviveCoding : Obligations.ShortRecordsSurviveCoding := by
  intro record compress hone hshort
  have hgives : (Decoding.run record.length compress false 1024 (freshDecoding (codeChunk compress [] 0 [] record).output)).1
      = chunkClosed record := by
    obtain hout | ⟨rfl, payload, hfew, hspells, hout⟩ := codeChunk_cases compress record
    · rw [hout]
      have hheader := runs_header_stored (compressed := compress) hone hshort
      exact run_gives (by omega) (hheader.trans (runs_stored hshort record 0 rfl (Nat.zero_le _)))
    · have hsome := hspells.payload_pos hone
      obtain ⟨k, hk, hruns⟩ := hspells.runs (compressed := true) hshort []
      rw [List.append_nil] at hruns
      rw [hout]
      exact run_gives (by omega) ((runs_header_compressed hone hshort hsome hfew).trans hruns)
  dsimp only
  change let r := (Decoding.run record.length compress false 1024 (freshDecoding (codeChunk compress [] 0 [] record).output)).1
    r.output = record ∧ r.produced = record.length ∧ r.crc = crcBytes 0xFFFFFFFF record
  rw [hgives]
  exact ⟨rfl, rfl, rfl⟩

end Sys2Proof.Machine
end

section
/-! Stripes judged (R26 to R28, R72, R74) and the directory they grow (R76, R77, R143), and O55 from them. -/

namespace Sys2Proof.Machine

/-! ### Hand-overs leave the Tape Transfer Engine -/

section
variable (s : State)

@[simp] theorem State.tryRecord_tte : s.tryRecord.tte = s.tte := by
  unfold State.tryRecord
  split <;> rfl

@[simp] theorem State.note_tte (k : NoteKind) (a b : Detail) : (s.note k a b).tte = s.tte := by
  unfold State.note
  split
  · rfl
  · rw [State.tryRecord_tte]
    rfl

@[simp] theorem State.complete_tte (id : Nat) (r : Result) (a b : Detail) : (s.complete id r a b).tte = s.tte := by
  unfold State.complete
  split
  · rfl
  · rw [State.tryRecord_tte]
    rfl

@[simp] theorem State.enterHealth_tte (h : Health) (cause : Nat) : (s.enterHealth h cause).tte = s.tte := by
  unfold State.enterHealth
  dsimp only
  repeat' split
  all_goals simp [State.onHm, State.onPins, State.onRg]

@[simp] theorem State.setIndex_tte (ci cause : Nat) : (s.setIndex ci cause).tte = s.tte := by
  unfold State.setIndex
  rw [State.enterHealth_tte]
  rfl

@[simp] theorem State.completeIntake_tte (r : Result) : ∀ (cs : List IntakeCmd) (s : State), (s.completeIntake cs r).tte = s.tte
  | [], _ => rfl
  | _ :: cs, s => (State.completeIntake_tte r cs _).trans (s.complete_tte ..)

end

/-! ### A stripe judged failed (R26, R27, R74) -/

theorem State.slotAt_of_get {s : State} {i : Nat} {x : Slot} (h : s.spm.slots[i]? = some x) : s.slotAt i = x := by
  simp [State.slotAt, h]

/-- A slot that moves between states: its record alone changes. -/
theorem State.moveSlot_of_get {s : State} {i : Nat} {x : Slot} {old new : SlotState} {f : Slot → Slot}
    (h : s.spm.slots[i]? = some x) (hold : x.state = old) (hnew : s.spm.admits new = true) :
    s.moveSlot i old new f = { s with spm := { s.spm with slots := s.spm.slots.set i { f x with state := new } } } := by
  have hmodify : s.spm.slots.modify i (fun x => { f x with state := new }) = s.spm.slots.set i { f x with state := new } := by
    simp [List.modify_eq_set_getElem?, h]
  unfold State.moveSlot
  rw [if_pos (by simp [h, hold, hnew])]
  show { s with spm := { s.spm with slots := s.spm.slots.modify i _ } } = _
  rw [hmodify]

/-- The state scored for a stripe judged failed: the record SEALED with its copy number raised. -/
def State.failedCopy (s : State) (i : Nat) (x : Slot) (copy : Nat) : State :=
  { s with
    spm := { s.spm with slots := s.spm.slots.set i { x with state := .sealed, copy := some (min 3 (copy + 1)) } }
    tte := { s.tte with verify := none } }

section
variable {s : State} {i copy : Nat} {x : Slot} (c : Option Counts)

theorem State.judgeFailed_eq (hx : s.spm.slots[i]? = some x) (hstate : x.state = .awaitVerify) (hcopy : x.copy = some copy) :
    s.judgeFailed i c =
      let e := (s.failedCopy i x copy).score true true c (x.stripe.getD 0)
      if copy < 3 then (if s.spm.clearing then e.dropSlot i else e)
      else if s.spm.clearing then e.raiseIndex.dropSlot i
      else if s.spm.direction = .writeOpen then e.permanentFailure i c
      else e.raiseIndex := by
  have hat : s.slotAt i = x := State.slotAt_of_get hx
  have hget : x.copy.getD 0 = copy := by rw [hcopy]; rfl
  have hmoved : ((s.onTte fun t => { t with verify := none }).moveSlot i .awaitVerify .sealed fun y =>
      { y with copy := some (min 3 (copy + 1)) }) = s.failedCopy i x copy :=
    State.moveSlot_of_get hx hstate rfl
  unfold State.judgeFailed
  simp only [hat, hget, hmoved]

/-- The record of the stripe after the score. -/
theorem State.slotAt_failedCopy (hx : s.spm.slots[i]? = some x) (stripe : Nat) :
    ((s.failedCopy i x copy).score true true c stripe).slotAt i
      = { x with state := .sealed, copy := some (min 3 (copy + 1)) } := by
  have hlt : i < s.spm.slots.length := (List.getElem?_eq_some_iff.1 hx).1
  apply State.slotAt_of_get
  rw [State.score_spm]
  simp [State.failedCopy, hlt]

theorem State.enterWriteFailed_enters (s : State) (cause : Cause) :
    (s.enterWriteFailed cause).spm.direction = .writeFailed ∧ (s.enterWriteFailed cause).tte.cause = some cause := by
  unfold State.enterWriteFailed
  dsimp only
  rw [State.completeIntake_spm, State.completeIntake_tte]
  exact ⟨rfl, rfl⟩

/-- The permanent failure leaves the session failed and asks for cleaning (R74, R165). -/
theorem State.permanentFailure_enters (s : State) (i : Nat) (c : Option Counts) :
    (s.permanentFailure i c).spm.direction = .writeFailed ∧ (s.permanentFailure i c).tte.cause = some .verify
      ∧ 700 ≤ (s.permanentFailure i c).hm.ci ∧ (s.permanentFailure i c).hm.health = .cleanRequired := by
  obtain ⟨hdir, hcause⟩ := State.enterWriteFailed_enters s .verify
  unfold State.permanentFailure State.raiseIndex
  dsimp only
  rw [State.setIndex_spm, State.note_spm, State.setIndex_tte, State.note_tte, State.setIndex_hm]
  refine ⟨hdir, hcause, ?_, ?_⟩
  · dsimp only
    omega
  · exact if_pos (Nat.le_max_right _ _)

end

/-! ### A stripe judged good, and the stripes freed (R28) -/

theorem State.judgeGood_eq {s : State} {i : Nat} (c : Counts) (h : (s.slotAt i).state = .awaitVerify) :
    s.judgeGood i c = State.freeRun (State.score
      { s with
        spm := { s.spm with slots := s.spm.slots.modify i fun x => { x with state := .verified } }
        tte := { s.tte with verify := none } } true false (some c) ((s.slotAt i).stripe.getD 0)) := by
  have hmoved : s.moveSlot i .awaitVerify .verified id
      = { s with spm := { s.spm with slots := s.spm.slots.modify i fun x => { x with state := .verified } } } := by
    have hsome : (s.spm.slots[i]?).any (·.state == .awaitVerify) = true := by
      unfold State.slotAt at h
      cases hx : s.spm.slots[i]? with
      | none =>
        rw [hx] at h
        cases h
      | some x =>
        rw [hx] at h
        exact beq_iff_eq.2 h
    unfold State.moveSlot
    rw [if_pos (by rw [hsome]; rfl)]
    rfl
  unfold State.judgeGood
  rw [hmoved]
  rfl

/-- The write-side stripes, as (stripe, slot). -/
def Spm.writeRun (m : Spm) : List (Nat × Nat) := m.numbered (·.state.writeSide)

/-- The bottom of the write side is VERIFIED, so that it can be freed. -/
def State.BottomVerified (s : State) : Prop := ∃ t i, lowestOf s.spm.writeRun = some (t, i) ∧ (s.slotAt i).state = .verified

/-- The stripe in slot `i` as it is handed to the directory (R76). -/
def State.doneAt (s : State) (t i : Nat) : StripeDone :=
  let x := s.slotAt i
  { stripe := t, pos := x.pos.getD { pass := 0, mark := 0 }, first := x.firstRecord.getD 0, flags := s.entryFlags i }

/-- One stripe freed into the directory. -/
def State.freeBottom (s : State) (t i : Nat) : State := (s.applyStripe (s.doneAt t i)).freeSlot i

theorem State.freeVerified_of_bottom {s : State} {t i : Nat} (n : Nat) (h : lowestOf s.spm.writeRun = some (t, i))
    (hv : (s.slotAt i).state = .verified) : State.freeVerified (n + 1) s = State.freeVerified n (s.freeBottom t i) := by
  have h' : lowestOf (s.spm.numbered (·.state.writeSide)) = some (t, i) := h
  rw [State.freeVerified, h']
  exact if_pos hv

theorem State.freeVerified_of_not_bottom {s : State} (h : ¬ s.BottomVerified) : ∀ n, State.freeVerified n s = s
  | 0 => rfl
  | n + 1 => by
    unfold State.freeVerified
    split
    · rfl
    · next t i hlow =>
      exact if_neg fun hv => h ⟨t, i, hlow, hv⟩

theorem lowestOf_mem : ∀ {l : List (Nat × Nat)} {x : Nat × Nat}, lowestOf l = some x → x ∈ l
  | y :: l, x, h => by
    unfold lowestOf at h
    split at h
    · next z hz =>
      split at h
      · cases h
        exact List.mem_cons_of_mem _ (lowestOf_mem hz)
      · cases h
        exact .head _
    · cases h
      exact .head _

/-- The number of write-side slots. -/
def Spm.writeCount (m : Spm) : Nat := m.slots.countP (·.state.writeSide)

/-- Freeing a write-side slot leaves one fewer. -/
theorem State.writeCount_freeBottom {s : State} {t i : Nat} (h : lowestOf s.spm.writeRun = some (t, i)) :
    (s.freeBottom t i).spm.writeCount + 1 = s.spm.writeCount := by
  obtain ⟨x, hx, hside, -⟩ := mem_numbered.1 (lowestOf_mem h)
  have hslots : (s.freeBottom t i).spm.slots = s.spm.slots.set i Slot.empty := by
    show s.spm.slots.modify i _ = _
    simp [List.modify_eq_set_getElem?, hx]
  obtain ⟨hlt, hget⟩ := List.getElem?_eq_some_iff.1 hx
  have hpos : 0 < s.spm.slots.countP (·.state.writeSide) :=
    List.countP_pos_iff.2 ⟨x, List.mem_of_getElem? hx, hside⟩
  unfold Spm.writeCount
  rw [hslots, List.countP_set hlt, hget, if_pos hside]
  rw [if_neg (by decide)]
  omega

/-- With moves enough the freeing stops at a stripe that is not VERIFIED. -/
theorem State.freeVerified_stops : ∀ (n : Nat) (s : State), s.spm.writeCount ≤ n → ¬ (State.freeVerified n s).BottomVerified
  | 0, s, h => by
    show ¬ s.BottomVerified
    rintro ⟨t, i, hlow, -⟩
    have := State.writeCount_freeBottom hlow
    omega
  | n + 1, s, h => by
    by_cases hb : s.BottomVerified
    · obtain ⟨t, i, hlow, hv⟩ := hb
      rw [State.freeVerified_of_bottom n hlow hv]
      have := State.writeCount_freeBottom hlow
      exact State.freeVerified_stops n _ (by omega)
    · rwa [State.freeVerified_of_not_bottom hb]

theorem State.sweepDropped_n (s : State) : s.sweepDropped.spm.n = s.spm.n := by
  unfold State.sweepDropped
  split
  · exact List.length_map _
  · rfl

theorem State.freeRun_stops (s : State) : ¬ s.freeRun.BottomVerified := by
  apply State.freeVerified_stops
  rw [← State.sweepDropped_n]
  exact List.countP_le_length

/-- One VERIFIED stripe at the bottom, with none to follow. -/
theorem State.freeRun_of_one {s : State} {t i : Nat} (h : lowestOf s.spm.writeRun = some (t, i))
    (hv : (s.slotAt i).state = .verified) (hc : s.spm.clearing = false) (hlast : ¬ (s.freeBottom t i).BottomVerified) :
    s.freeRun = s.freeBottom t i := by
  obtain ⟨x, hx, -, -⟩ := mem_numbered.1 (lowestOf_mem h)
  have hsome : ∃ n, s.spm.n = n + 1 := Nat.exists_eq_succ_of_ne_zero
    (Nat.ne_of_gt (Nat.zero_lt_of_lt (List.getElem?_eq_some_iff.1 hx).1))
  obtain ⟨n, hn⟩ := hsome
  have hsweep : s.sweepDropped = s := by
    unfold State.sweepDropped
    rw [hc]
  unfold State.freeRun
  rw [hsweep, hn, State.freeVerified_of_bottom n h hv, State.freeVerified_of_not_bottom hlast]

theorem markOnce_eq (l : List Nat) (x : Nat) : markOnce l x = if x ∈ l then l else l ++ [x] := by
  simp [markOnce]

theorem State.freeBottom_eq {s : State} {d : Directory} (hd : s.cml.directory = some d) (t i : Nat) :
    s.freeBottom t i =
      { s with
        spm := { s.spm with slots := s.spm.slots.modify i fun _ => Slot.empty }
        cml := { s.cml with
          directory := some (d.apply (s.doneAt t i))
          dirty := { s.cml.dirty with
            header := true
            passes := if (s.doneAt t i).pos.pass ∈ s.cml.dirty.passes then s.cml.dirty.passes
              else s.cml.dirty.passes ++ [(s.doneAt t i).pos.pass]
            index := (grownPages d.index.length (d.apply (s.doneAt t i)).index.length).foldl markOnce s.cml.dirty.index } } } := by
  unfold State.freeBottom State.applyStripe State.onCml
  simp only [hd, markOnce_eq]
  rfl

/-! ### The directory grown by a stripe (R76, R77, R143, R144) -/

/-- Filemark pairs appended one by one, as far as the index has room. -/
theorem foldl_addFilemark : ∀ (l : List (Nat × Nat)) (d : Directory), d.index.length ≤ 512 →
    l.foldl Directory.addFilemark d =
      { d with index := (d.index ++ l).take 512, complete := decide (d.index.length + l.length ≤ 512) && d.complete }
  | [], d, h => by simp [List.take_of_length_le h, h]
  | p :: l, d, h => by
    rw [List.foldl_cons]
    by_cases hroom : d.index.length < 512
    · have hadd : d.addFilemark p = { d with index := d.index ++ [p] } := if_pos hroom
      rw [hadd, foldl_addFilemark l _ (by rw [List.length_append]; exact hroom)]
      simp [Nat.add_assoc, Nat.add_comm 1]
    · have hfull : d.index.length = 512 := by omega
      have hadd : d.addFilemark p = { d with complete := false } := if_neg hroom
      rw [hadd, foldl_addFilemark l { d with complete := false } h]
      simp [hfull]

theorem addFilemark_rest (p : Nat × Nat) (d : Directory) :
    (d.addFilemark p).eodStripe = d.eodStripe ∧ (d.addFilemark p).eodRecord = d.eodRecord
      ∧ (d.addFilemark p).generation = d.generation ∧ (d.addFilemark p).passes = d.passes := by
  unfold Directory.addFilemark
  split <;> exact ⟨rfl, rfl, rfl, rfl⟩

theorem foldl_addFilemark_rest : ∀ (l : List (Nat × Nat)) (d : Directory),
    (l.foldl Directory.addFilemark d).eodStripe = d.eodStripe ∧ (l.foldl Directory.addFilemark d).eodRecord = d.eodRecord
      ∧ (l.foldl Directory.addFilemark d).generation = d.generation ∧ (l.foldl Directory.addFilemark d).passes = d.passes
  | [], _ => ⟨rfl, rfl, rfl, rfl⟩
  | p :: l, d => by
    obtain ⟨h1, h2, h3, h4⟩ := addFilemark_rest p d
    obtain ⟨g1, g2, g3, g4⟩ := foldl_addFilemark_rest l (d.addFilemark p)
    exact ⟨g1.trans h1, g2.trans h2, g3.trans h3, g4.trans h4⟩

/-- The records of the pairs that a stripe adds to the index. -/
def StripeDone.marks (x : StripeDone) : List (Nat × Nat) := (filemarkRecords x.first x.flags).map fun r => (r, x.stripe)

/-- The directory before its filemark pairs are added. -/
def Directory.applyEntry (d : Directory) (x : StripeDone) : Directory :=
  { d with
    eodStripe := x.stripe + 1, eodRecord := d.eodRecord + lastPieces x.flags
    passes := d.passes.set x.pos.pass (some (growEntry (d.entry x.pos.pass) x)) }

theorem Directory.apply_eq (d : Directory) (x : StripeDone) : d.apply x = x.marks.foldl Directory.addFilemark (d.applyEntry x) :=
  rfl

theorem Directory.apply_rest (d : Directory) (x : StripeDone) :
    (d.apply x).eodStripe = x.stripe + 1 ∧ (d.apply x).eodRecord = d.eodRecord + x.flags.countP flagLast
      ∧ (d.apply x).generation = d.generation
      ∧ (d.apply x).passes = d.passes.set x.pos.pass (some (growEntry (d.entry x.pos.pass) x)) :=
  foldl_addFilemark_rest x.marks (d.applyEntry x)

theorem Directory.entry_apply (d : Directory) (x : StripeDone) (p : Nat) :
    (d.apply x).entry p = if p = x.pos.pass ∧ p < d.passes.length then some (growEntry (d.entry p) x) else d.entry p := by
  obtain ⟨-, -, -, hpasses⟩ := d.apply_rest x
  unfold Directory.entry
  rw [hpasses]
  by_cases hp : p = x.pos.pass
  · subst hp
    by_cases hin : x.pos.pass < d.passes.length
    · simp [Directory.entry, hin]
    · simp [hin]
  · simp [List.getD_eq_getElem?_getD, Ne.symm hp, hp]

/-- The end mark moves on from the pass's start, or from where it stood. -/
theorem stop_further (p : TapePos) : (p.onward 6).furtherThan { pass := p.pass, mark := passStart p.pass } = true := by
  unfold TapePos.onward placeAt TapePos.furtherThan TapePos.offset passStart
  cases isForward p.pass <;> simp [Config.lastMark]

theorem endMark_moves {p : TapePos} {b : Nat} (hb : b ≤ 60000) :
    (if (p.onward 6).furtherThan { pass := p.pass, mark := b } = true then (p.onward 6).mark else b)
      = if p.pass % 2 = 0 then max b (p.onward 6).mark else min b (p.onward 6).mark := by
  have hmark : (p.onward 6).mark ≤ 60000 := by
    unfold TapePos.onward placeAt
    cases isForward p.pass <;> simp [Config.lastMark]
  have hpass : (p.onward 6).pass = p.pass := rfl
  unfold TapePos.furtherThan TapePos.offset
  rw [hpass]
  unfold isForward
  by_cases heven : p.pass % 2 = 0
  · simp only [heven, beq_self_eq_true, if_true, decide_eq_true_eq]
    split <;> omega
  · have hodd : (p.pass % 2 == 0) = false := beq_eq_false_iff_ne.2 heven
    simp only [hodd, Bool.false_eq_true, if_false, heven, Config.lastMark, decide_eq_true_eq]
    split <;> omega

theorem growEntry_of_none (x : StripeDone) :
    let e := growEntry none x
    e.first = x.stripe ∧ e.last = x.stripe ∧ e.firstRecord = x.first ∧ e.endMark = (x.pos.onward 6).mark
      ∧ e.waypoints = (List.replicate 16 none).set x.pos.segment
          (some { stripe := x.stripe, first := x.first, mark := x.pos.mark }) := by
  have hnone : ((List.replicate 16 (none : Option Waypoint)).getD x.pos.segment none).isSome = false := by
    rw [List.getD_eq_getElem?_getD, List.getElem?_replicate]
    split <;> rfl
  refine ⟨rfl, Nat.max_self _, rfl, if_pos (stop_further x.pos), ?_⟩
  unfold growEntry
  simp only [hnone, Bool.false_eq_true, if_false]

theorem growEntry_of_some (b : PassEntry) (x : StripeDone) :
    let e := growEntry (some b) x
    e.first = b.first ∧ e.last = max b.last x.stripe ∧ e.firstRecord = b.firstRecord
      ∧ e.waypoints = (if b.waypoints.getD x.pos.segment none = none then
          b.waypoints.set x.pos.segment (some { stripe := x.stripe, first := x.first, mark := x.pos.mark }) else b.waypoints)
      ∧ (b.endMark ≤ 60000 →
          e.endMark = if x.pos.pass % 2 = 0 then max b.endMark (x.pos.onward 6).mark else min b.endMark (x.pos.onward 6).mark) := by
  refine ⟨rfl, rfl, rfl, ?_, fun hb => endMark_moves hb⟩
  unfold growEntry
  dsimp only
  cases b.waypoints.getD x.pos.segment none <;> simp

theorem Directory.apply_index {d : Directory} {x : StripeDone} (h : d.index.length ≤ 512) :
    (d.apply x).index = (d.index ++ x.marks).take 512
      ∧ (d.apply x).complete = (decide (d.index.length + x.marks.length ≤ 512) && d.complete) := by
  rw [Directory.apply_eq, foldl_addFilemark x.marks (d.applyEntry x) h]
  exact ⟨rfl, rfl⟩

theorem Directory.apply_grows (d : Directory) (x : StripeDone) :
    let g := d.apply x
    let marks := (filemarkRecords x.first x.flags).map fun r => (r, x.stripe)
    let waypoint : Option Waypoint := some { stripe := x.stripe, first := x.first, mark := x.pos.mark }
    let stop := (x.pos.onward 6).mark
    g.eodStripe = x.stripe + 1 ∧ g.eodRecord = d.eodRecord + x.flags.countP flagLast ∧ g.generation = d.generation
    ∧ (∀ p, p ≠ x.pos.pass → g.entry p = d.entry p)
    ∧ (x.pos.pass < d.passes.length → ∃ e, g.entry x.pos.pass = some e
        ∧ (d.entry x.pos.pass = none →
            e.first = x.stripe ∧ e.last = x.stripe ∧ e.firstRecord = x.first ∧ e.endMark = stop
            ∧ e.waypoints = (List.replicate 16 none).set x.pos.segment waypoint)
        ∧ ∀ b, d.entry x.pos.pass = some b →
            e.first = b.first ∧ e.last = max b.last x.stripe ∧ e.firstRecord = b.firstRecord
            ∧ e.waypoints
              = (if b.waypoints.getD x.pos.segment none = none then b.waypoints.set x.pos.segment waypoint else b.waypoints)
            ∧ (b.endMark ≤ 60000 →
                e.endMark = if x.pos.pass % 2 = 0 then max b.endMark stop else min b.endMark stop))
    ∧ (d.index.length + marks.length ≤ 512 → g.index = d.index ++ marks ∧ g.complete = d.complete)
    ∧ (d.index.length ≤ 512 → 512 < d.index.length + marks.length →
        g.index = (d.index ++ marks).take 512 ∧ g.complete = false) := by
  obtain ⟨hstripe, hrecord, hgen, -⟩ := d.apply_rest x
  have hentry := d.entry_apply x
  refine ⟨hstripe, hrecord, hgen, fun p hp => ?_, fun hin => ?_, fun hroom => ?_, fun hlen hfull => ?_⟩
  · rw [hentry, if_neg fun h => hp h.1]
  · refine ⟨_, (hentry _).trans (if_pos ⟨rfl, hin⟩), fun hnone => ?_, fun b hb => ?_⟩
    · rw [hnone]
      exact growEntry_of_none x
    · rw [hb]
      exact growEntry_of_some b x
  · change d.index.length + x.marks.length ≤ 512 at hroom
    obtain ⟨hindex, hcomplete⟩ := Directory.apply_index (x := x) (show d.index.length ≤ 512 by omega)
    refine ⟨hindex.trans (List.take_of_length_le ?_), hcomplete.trans ?_⟩
    · rw [List.length_append]
      exact hroom
    · rw [decide_eq_true hroom, Bool.true_and]
  · change 512 < d.index.length + x.marks.length at hfull
    obtain ⟨hindex, hcomplete⟩ := Directory.apply_index (x := x) hlen
    refine ⟨hindex, hcomplete.trans ?_⟩
    rw [decide_eq_false (Nat.not_le_of_lt hfull), Bool.false_and]

/-- The permanent failure of the stripe that slot `i` holds. -/
theorem State.permanentFailure_eq {e : State} {i : Nat} {x y : Slot} (c : Option Counts) (hy : e.slotAt i = y)
    (hstripe : y.stripe = x.stripe) (hpos : y.pos = x.pos) :
    let p := x.pos.getD { pass := 0, mark := 0 }
    let failed := (e.enterWriteFailed .verify).note .writeFailed
      (dv 4 (x.stripe.getD 0) ++ dv 1 p.pass ++ du 3)
      (dv 2 p.mark ++ (match c with | some k => dv 2 k.rows ++ dv 1 k.maxCorrected | none => du 3)
        ++ dv 1 (if c.isSome then 0 else 1) ++ du 2)
    e.permanentFailure i c = failed.setIndex (max failed.hm.ci 700) 2 := by
  unfold State.permanentFailure
  dsimp only
  rw [hy, hstripe, hpos]
  rfl

/-- Settles O55: a failed stripe by its copy number and the session, a good one by the run of VERIFIED stripes it lets go. -/
theorem stripesAreJudged : Obligations.StripesAreJudged := by
  refine ⟨?_, fun s i c h => State.judgeGood_eq c h, ?_, ?_, Directory.apply_grows⟩
  · intro s i x copy c hx hstate hcopy hle
    have hjudged := State.judgeFailed_eq c hx hstate hcopy
    have hat := State.slotAt_failedCopy (copy := copy) c hx (x.stripe.getD 0)
    intro e raised p failed
    have he : e = (s.failedCopy i x copy).score true true c (x.stripe.getD 0) := rfl
    have hraised : raised = e.raiseIndex := rfl
    have hfailed := State.permanentFailure_eq (e := e) c hat rfl rfl
    rw [← he] at hjudged
    clear_value e
    refine ⟨fun hlt => ?_, fun hthree hclear => ?_, fun hthree hclear hdir => ?_, fun hthree hclear hdir => ?_⟩
    · exact hjudged.trans (if_pos hlt)
    · exact hraised ▸ hjudged.trans ((if_neg (by omega)).trans (if_pos hclear))
    · exact hraised ▸ hjudged.trans ((if_neg (by omega)).trans ((if_neg (by simp [hclear])).trans (if_neg hdir)))
    · have hperm := hjudged.trans ((if_neg (by omega)).trans ((if_neg (by simp [hclear])).trans (if_pos hdir)))
      refine ⟨hperm.trans hfailed, ?_⟩
      rw [hperm]
      exact State.permanentFailure_enters e i c
  · intro s i t d hlow hv hc hd
    dsimp only
    intro hlast
    have hbottom := State.freeBottom_eq hd t i
    refine (State.freeRun_of_one hlow hv hc ?_).trans hbottom
    rintro ⟨u, j, hlow', hv'⟩
    rw [hbottom] at hlow' hv'
    exact hlast u j hlow' hv'
  · intro s t i hlow hv
    exact s.freeRun_stops ⟨t, i, hlow, hv⟩

end Sys2Proof.Machine
end

section
/-! What the end of a step adds to a quiet state (R179, R189), and O9 from it. -/

namespace Sys2Proof.Machine

theorem State.finish_of_quiet {e : State} (h : e.Quiet) : e.finish = e.dropCounts.noticeStatus := by
  unfold State.finish
  rw [h.settle]

/-- The counts kept are those of requesters that wait. -/
theorem State.dropCounts_get (s : State) (r : Requester) :
    s.dropCounts.bpu.starve.get r = if s.waits r then s.bpu.starve.get r else 0 := by
  cases r <;> rfl

theorem State.dropCounts_statusBytes (s : State) : s.dropCounts.statusBytes = s.statusBytes := rfl

/-- Fields that stand as shown, or a status write that is asked already, change nothing. -/
theorem State.noticeStatus_of_shown {s : State} (h : s.statusBytes = s.cw.shown ∨ s.cw.statusAsked = true) :
    s.noticeStatus = s := by
  unfold State.noticeStatus State.askStatus
  split
  · rfl
  · next hne => rw [if_pos (h.resolve_left hne)]

/-- A changed field asks for one status write. -/
theorem State.noticeStatus_of_changed {s : State} (h : s.statusBytes ≠ s.cw.shown) (ha : s.cw.statusAsked = false) :
    s.noticeStatus =
      { s with bpu := { s.bpu with ring := s.bpu.ring ++ [.status] }, cw := { s.cw with statusAsked := true } } := by
  unfold State.noticeStatus State.askStatus
  rw [if_neg h, ha]
  rfl

theorem State.noticeStatus_starve (s : State) : s.noticeStatus.bpu.starve = s.bpu.starve := by
  unfold State.noticeStatus State.askStatus
  repeat' split
  all_goals rfl

/-- Settles O9: the counts dropped, then the status write noticed. -/
theorem finishOfQuietState : Obligations.FinishOfQuietState := by
  intro e hquiet
  have hbytes := e.dropCounts_statusBytes
  rw [State.finish_of_quiet hquiet]
  refine ⟨?_, fun r => ?_⟩
  · rw [State.noticeStatus_starve]
    by_cases hshown : e.statusBytes = e.cw.shown
    · rw [State.noticeStatus_of_shown (.inl (hbytes.trans hshown)), if_neg fun h => h.1 hshown,
        decide_eq_false (not_not_intro hshown), Bool.or_false, List.append_nil]
      rfl
    · cases hasked : e.cw.statusAsked with
      | true =>
        rw [State.noticeStatus_of_shown (s := e.dropCounts) (.inr hasked), if_neg fun h => Bool.noConfusion h.2,
          Bool.true_or, List.append_nil, ← hasked]
        rfl
      | false =>
        rw [State.noticeStatus_of_changed (s := e.dropCounts) (fun h => hshown (hbytes.symm.trans h)) hasked, if_pos ⟨hshown, rfl⟩,
          decide_eq_true hshown, Bool.or_true]
        rfl
  · rw [State.noticeStatus_starve, State.dropCounts_get]

end Sys2Proof.Machine
end

section
/-! The controller reset block by block (R181 and the reset tables), and O22 from them. -/

namespace Sys2Proof.Machine

/-! ### Step 1: every access answered ERROR -/

/-- The answer an initiator holds. -/
def Bpu.answerOf (b : Bpu) : Initiator → Option Answer
  | .drive => b.driveAnswer
  | .link => b.linkAnswer

/-- An ERROR with no byte but zeros. -/
def Answer.IsError (x : Answer) : Prop := x.okay = false ∧ ∀ b ∈ x.bytes, b = 0

theorem eq_zero_of_mem_zeros {n : Nat} {b : Byte} (h : b ∈ zeros n) : b = 0 := (List.mem_replicate.1 h).2

theorem State.answerError_answerOf_same (s : State) (a : Access) :
    ∃ x, (s.answerError a).bpu.answerOf a.who = some x ∧ x.IsError := by
  have hbytes : ∀ n, ∀ b ∈ (if a.write then [] else zeros n), b = 0 := by
    intro n b hb
    split at hb
    · cases hb
    · exact eq_zero_of_mem_zeros hb
  unfold State.answerError State.answer
  cases a.who with
  | drive => exact ⟨_, rfl, rfl, hbytes _⟩
  | link => exact ⟨_, rfl, rfl, hbytes _⟩

theorem State.answerError_answerOf_other (s : State) {a : Access} {who : Initiator} (h : a.who ≠ who) :
    (s.answerError a).bpu.answerOf who = s.bpu.answerOf who := by
  unfold State.answerError State.answer
  cases who with
  | drive =>
    cases ha : a.who with
    | drive => exact absurd ha h
    | link => rfl
  | link =>
    cases ha : a.who with
    | drive => rfl
    | link => exact absurd ha h

/-- The accesses that a controller reset answers. -/
def State.unanswered (s : State) : List Access := s.bpu.held.map (·.access) ++ s.bpu.upstream.filterMap UpReq.access?

theorem foldl_answerError_answerOf : ∀ (l : List Access) (s : State) (who : Initiator),
    ((∃ a ∈ l, a.who = who) ∨ ∃ x, s.bpu.answerOf who = some x ∧ x.IsError) →
    ∃ x, (l.foldl State.answerError s).bpu.answerOf who = some x ∧ x.IsError
  | [], s, who, h => h.resolve_left (by simp)
  | a :: l, s, who, h => by
    refine foldl_answerError_answerOf l _ who ?_
    by_cases ha : a.who = who
    · exact .inr (ha ▸ s.answerError_answerOf_same a)
    · rw [State.answerError_answerOf_other s ha]
      exact h.imp_left fun ⟨b, hb, hwho⟩ => ⟨b, (List.mem_cons.1 hb).resolve_left (fun h0 => ha (h0 ▸ hwho)), hwho⟩

theorem foldl_answerError_keeps : ∀ (l : List Access) (s : State) (who : Initiator), (∀ a ∈ l, a.who ≠ who) →
    (l.foldl State.answerError s).bpu.answerOf who = s.bpu.answerOf who
  | [], _, _, _ => rfl
  | a :: l, s, who, h =>
    (foldl_answerError_keeps l _ who fun b hb => h b (List.mem_cons_of_mem _ hb)).trans
      (s.answerError_answerOf_other (h a (.head _)))

theorem State.not_busy {s : State} {who : Initiator} (h : s.busy who = false) : ∀ a ∈ s.unanswered, a.who ≠ who := by
  unfold State.busy at h
  rw [Bool.or_eq_false_iff] at h
  obtain ⟨hheld, hup⟩ := h
  intro a ha
  rcases List.mem_append.1 ha with hm | hm
  · obtain ⟨x, hx, rfl⟩ := List.mem_map.1 hm
    exact fun h0 => by
      have := List.any_eq_false.1 hheld x hx
      simp [h0] at this
  · obtain ⟨r, hr, ha⟩ := List.mem_filterMap.1 hm
    exact fun h0 => by
      have := List.any_eq_false.1 hup r hr
      simp [ha, h0] at this

/-- All but the two answers stands. -/
theorem State.answer_frame (s : State) (who : Initiator) (okay : Bool) (bytes : List Byte) :
    s.answer who okay bytes = { s with bpu := { s.bpu with
      driveAnswer := (s.answer who okay bytes).bpu.driveAnswer, linkAnswer := (s.answer who okay bytes).bpu.linkAnswer } } := by
  cases who <;> rfl

theorem foldl_answerError_frame : ∀ (l : List Access) (s : State),
    l.foldl State.answerError s = { s with bpu := { s.bpu with
      driveAnswer := (l.foldl State.answerError s).bpu.driveAnswer
      linkAnswer := (l.foldl State.answerError s).bpu.linkAnswer } }
  | [], _ => rfl
  | a :: l, s => by
    have ih := foldl_answerError_frame l (s.answerError a)
    have ha := s.answer_frame a.who false (if a.write then [] else zeros
      (match a.width with | .w1 => 1 | .w2 => 2 | .w4 => 4 | .w8 => 8))
    rw [List.foldl_cons, ih]
    change s.answerError a = _ at ha
    rw [ha]

/-! ### Step 3: the link cut (R138, R148) -/

/-- What a cut of the link can change. -/
theorem State.cutLink_frame (s : State) :
    s.cutLink = { s with free := s.cutLink.free, cartridge := s.cutLink.cartridge, cml := s.cutLink.cml } := by
  unfold State.cutLink
  split
  · rfl
  · dsimp only
    split
    · split <;> rfl
    · rfl

theorem State.cutLink_of_none {s : State} (h : s.cml.op = none) : s.cutLink = s := by
  unfold State.cutLink
  rw [h]

/-- What the cut leaves of the link, by the operation it ends. -/
def Cml.cut (c : Cml) (op : LinkOp) : Cml :=
  match op.kind with
  | .loadRead => c.noDirectory c.kind c.recorded
  | .invalidate _ => { c with op := none, recorded := .unknown }
  | .counters => { c with op := none }
  | .save => { c with op := none, recorded := match op.steps with | .write 2 :: _ => .unknown | _ => c.recorded }

theorem State.cutLink_of_some {s : State} {op : LinkOp} (h : s.cml.op = some op) : s.cutLink.cml = s.cml.cut op := by
  unfold State.cutLink
  simp only [h]
  split
  · split <;> rfl
  · rfl

theorem Cml.cut_keeps (c : Cml) (op : LinkOp) :
    (c.cut op).counters = c.counters ∧ (c.cut op).identity = c.identity ∧ (c.cut op).dirty = c.dirty := by
  unfold Cml.cut
  split <;> exact ⟨rfl, rfl, rfl⟩

/-- A header write of the save cut off leaves the recorded flag UNKNOWN (R138). -/
theorem Cml.cut_recorded (c : Cml) (op : LinkOp) :
    (c.cut op).recorded = (match some (op.kind, op.steps.head?) with
      | some (.invalidate _, _) => .unknown
      | some (.save, some (.write 2)) => .unknown
      | _ => c.recorded) := by
  unfold Cml.cut
  cases op.kind with
  | loadRead => rfl
  | invalidate id => rfl
  | counters => rfl
  | save =>
    cases op.steps with
    | nil => rfl
    | cons t rest =>
      cases t with
      | read a n => rfl
      | write k =>
        by_cases hk : k = 2
        · subst hk
          rfl
        · simp [hk]

theorem Cml.cut_directory (c : Cml) (op : LinkOp) :
    (match some op.kind with
      | some .loadRead => (c.cut op).condition = .absent ∧ (c.cut op).directory = none
      | _ => (c.cut op).condition = c.condition ∧ (c.cut op).directory = c.directory) := by
  unfold Cml.cut
  cases op.kind <;> exact ⟨rfl, rfl⟩

/-! ### Steps 4 on: every block -/

/-- Every block takes its controller-reset values. -/
def State.resetValues (u : State) : State :=
  { u with
    bpu := { u.bpu with effective := clearedTable, upstream := [], held := [], starve := Starve.zero, rewrites := 17
                        ring := resetRing }
    ci := Ci.reset u.ci.nextId
    cw := Cw.reset u.cw.shown
    pe := Pe.reset u.pe.compression
    spm := { u.spm with slots := [], direction := .none, sealTimer := none, sealing := none, clearing := false, dropFrom := none }
    tte := Tte.reset
    ue := Ue.reset
    rg := { u.rg.leave with f := 0 }
    pins := if u.mc.state = MotionState.cleaning then { u.pins with tapeInPath := false } else u.pins
    mc := u.mc.controllerReset
    ss := Ss.reset u.ss.latest
    hm := { u.hm with cleaning := .none } }

/-- With the rings cleared ATTN tells of the sensor tail alone. -/
theorem State.resetValues_attn (u : State) : u.resetValues.attnCondition = (fieldAt u.cw.shown 4 2 != 0) := by
  have hslots : u.resetValues.ringSlots .completion 32 = 0 := rfl
  unfold State.attnCondition
  rw [hslots]
  show ([].any _ || (fieldAt u.cw.shown 4 2 != 0 && !Nat.testBit 0 2)) = _
  simp

theorem State.controllerReset_eq (s : State) :
    s.controllerReset = s.answerAllError.drainLines.cutLink.resetValues.judgeAttn := by
  unfold State.controllerReset
  generalize s.answerAllError.drainLines.cutLink = u
  by_cases hc : u.mc.state = .cleaning
  · simp [hc, State.resetValues, State.onBpu, State.onCi, State.onCw, State.onPe, State.onSpm, State.onTte, State.onUe,
      State.onRg, State.onMc, State.onSs, State.onHm, State.onPins]
  · simp [hc, State.resetValues, State.onBpu, State.onCi, State.onCw, State.onPe, State.onSpm, State.onTte, State.onUe,
      State.onRg, State.onMc, State.onSs, State.onHm]

/-- DRAM with the posted lines written, oldest first. -/
def State.drainedDram (s : State) : List Host.Cell :=
  s.bpu.upstream.foldl (fun d r =>
    match r with
    | .line block bytes => Memory.writeMarked d block bytes
    | .access _ => d) s.dram

/-- The accesses answered and the lines written, before the link is cut. -/
theorem State.drained_eq (s : State) :
    s.answerAllError.drainLines =
      { s with
        dram := s.drainedDram
        bpu := { s.bpu with
          driveAnswer := s.answerAllError.bpu.driveAnswer, linkAnswer := s.answerAllError.bpu.linkAnswer } } := by
  have hframe := foldl_answerError_frame s.unanswered s
  change s.answerAllError = _ at hframe
  unfold State.drainLines
  rw [hframe]
  rfl

theorem Mc.controllerReset_eq (m : Mc) :
    m.controllerReset.pos = m.pos ∧ m.controllerReset.dsPos = m.dsPos ∧ m.controllerReset.job = none
      ∧ m.controllerReset.speedFaults = 0 ∧ m.controllerReset.thermal = .normal ∧ m.controllerReset.travel = .stopped
      ∧ m.controllerReset.state = (match m.state with
          | .threading => .threading | .unthreading => .unthreading | .empty => .empty | .present | .cleaning => .present
          | .fault => .fault | .stranded => .stranded | _ => .ready) := by
  unfold Mc.controllerReset
  cases m.state <;> exact ⟨rfl, rfl, rfl, rfl, rfl, rfl, rfl⟩

/-- The link after the cut, told from the state before. -/
theorem State.cutLink_cml (s : State) :
    s.cutLink.cml.op = none ∧ s.cutLink.cml.counters = s.cml.counters ∧ s.cutLink.cml.identity = s.cml.identity
      ∧ s.cutLink.cml.dirty = s.cml.dirty
      ∧ (match s.cml.op.map LinkOp.kind with
        | some .loadRead => s.cutLink.cml.condition = .absent ∧ s.cutLink.cml.directory = none
        | _ => s.cutLink.cml.condition = s.cml.condition ∧ s.cutLink.cml.directory = s.cml.directory)
      ∧ s.cutLink.cml.recorded = (match s.cml.op.map fun o : LinkOp => (o.kind, o.steps.head?) with
        | some (.invalidate _, _) => .unknown
        | some (.save, some (.write 2)) => .unknown
        | _ => s.cml.recorded) := by
  refine ⟨s.cutLink_op, ?_⟩
  cases hop : s.cml.op with
  | none =>
    rw [State.cutLink_of_none hop]
    exact ⟨rfl, rfl, rfl, ⟨rfl, rfl⟩, rfl⟩
  | some op =>
    obtain ⟨hcounters, hidentity, hdirty⟩ := s.cml.cut_keeps op
    rw [State.cutLink_of_some hop]
    exact ⟨hcounters, hidentity, hdirty, s.cml.cut_directory op, s.cml.cut_recorded op⟩

/-- The first three steps of R181 together. -/
theorem State.cut_eq (s : State) : ∃ free cartridge, (s.cml.op = none → cartridge = s.cartridge) ∧
    s.answerAllError.drainLines.cutLink =
      { s with
        free := free
        cartridge := cartridge
        dram := s.drainedDram
        bpu := { s.bpu with
          driveAnswer := s.answerAllError.bpu.driveAnswer, linkAnswer := s.answerAllError.bpu.linkAnswer }
        cml := s.cutLink.cml } := by
  have hcml : s.answerAllError.drainLines.cml = s.cml := by rw [s.drained_eq]
  have hlink : s.answerAllError.drainLines.cutLink.cml = s.cutLink.cml := by
    cases hop : s.cml.op with
    | none => rw [State.cutLink_of_none hop, State.cutLink_of_none (hcml ▸ hop), hcml]
    | some op => rw [State.cutLink_of_some hop, State.cutLink_of_some (hcml ▸ hop), hcml]
  refine ⟨s.answerAllError.drainLines.cutLink.free, s.answerAllError.drainLines.cutLink.cartridge, fun hop => ?_,
    s.answerAllError.drainLines.cutLink_frame.trans ?_⟩
  · rw [State.cutLink_of_none (hcml ▸ hop), s.drained_eq]
  · rw [hlink]
    generalize s.answerAllError.drainLines.cutLink = u
    rw [s.drained_eq]

/-- Settles O22: the four steps of R181 one after the other. -/
theorem controllerResetLeaves : Obligations.ControllerResetLeaves := by
  intro s
  have hanswered := foldl_answerError_answerOf s.unanswered s
  have hkept := foldl_answerError_keeps s.unanswered s
  change ∀ who, _ → ∃ x, s.answerAllError.bpu.answerOf who = some x ∧ _ at hanswered
  change ∀ who, _ → s.answerAllError.bpu.answerOf who = _ at hkept
  have hlink := s.cutLink_cml
  obtain ⟨free, cartridge, hcart, hcut⟩ := s.cut_eq
  have hattn := s.answerAllError.drainLines.cutLink.resetValues_attn
  rw [hcut] at hattn
  obtain ⟨hpos, hds, hjob, hspeed, hthermal, htravel, hstate⟩ := s.mc.controllerReset_eq
  rw [State.controllerReset_eq, hcut]
  refine ⟨⟨rfl, hcart, rfl, rfl⟩, ⟨rfl, rfl, rfl, fun r => ?_, rfl, fun a ha => ?_, fun who hw => ?_⟩, rfl,
    ⟨rfl, rfl, rfl, rfl, rfl, rfl, rfl, rfl⟩, ⟨rfl, rfl, rfl, rfl, rfl, rfl, rfl⟩, ⟨rfl, rfl, rfl⟩,
    ⟨rfl, rfl, rfl, rfl, rfl, rfl⟩, ⟨hpos, hds, hjob, hspeed, hthermal, htravel, hstate⟩, hlink,
    ⟨rfl, rfl, rfl, rfl, rfl, rfl⟩, ⟨rfl, rfl, rfl, rfl, ?_⟩, rfl, rfl, rfl, rfl, rfl, rfl, hattn⟩
  · cases r <;> rfl
  · have hin : a ∈ s.unanswered := by
      rcases ha with ⟨h, hh, rfl⟩ | hup
      · exact List.mem_append_left _ (List.mem_map_of_mem hh)
      · exact List.mem_append_right _ (List.mem_filterMap.2 ⟨_, hup, rfl⟩)
    obtain ⟨x, hx, hok, hbytes⟩ := hanswered a.who (.inl ⟨a, hin, rfl⟩)
    exact ⟨x, hx, hok, hbytes⟩
  · exact hkept who (State.not_busy hw)
  · show (if s.mc.state = MotionState.cleaning then { s.pins with tapeInPath := false } else s.pins).panel = s.pins.panel
    split <;> rfl

end Sys2Proof.Machine
end

section
/-! How an access arrives at the upstream port (R171, R176, R181): answered or held at once, or granted the port as it comes
(log entry 11); and O23, O24 from it. -/

namespace Sys2Proof.Machine

/-! ### The rows -/

theorem next_congr {t u : State} (h : t = u) : (.next t : RowOutcome) = .next u := h ▸ rfl

theorem exec_writeRows {who : Initiator} {addr : Nat} {w : Width} {v : BitVec 64} {c : Instr} (hc : c ∈ writeRows who addr w v)
    (s : State) : exec c s = .next (s.arrive (writeOf who addr w v)) := by
  simp only [writeRows, List.mem_cons, List.not_mem_nil, or_false] at hc
  rcases hc with rfl | rfl | rfl | rfl <;> rfl

/-! ### Answers and what stands beside them -/

section
variable (s : State)

@[simp] theorem State.clearAnswer_answer (who : Initiator) (okay : Bool) (bytes : List Byte) :
    (s.clearAnswer who).answer who okay bytes = s.answer who okay bytes := by cases who <;> rfl

theorem State.answerError_write {a : Access} (h : a.write = true) : s.answerError a = s.answer a.who false [] := by
  unfold State.answerError
  rw [if_pos h]

theorem State.answerError_read {a : Access} (h : a.write = false) :
    s.answerError a = s.answer a.who false (zeros (widthBytes a.width)) := by
  unfold State.answerError
  rw [if_neg (by simp [h])]
  cases a.width <;> rfl

/-- An access that is answered ERROR as it arrives has not waited. -/
theorem State.clearAnswer_answerError (a : Access) : (s.clearAnswer a.who).answerError a = s.answerError a :=
  s.clearAnswer_answer a.who false _

@[simp] theorem State.clearAnswer_rewrites (who : Initiator) : (s.clearAnswer who).bpu.rewrites = s.bpu.rewrites := by
  cases who <;> rfl

@[simp] theorem State.clearAnswer_classify (who : Initiator) (a : Nat) : (s.clearAnswer who).classify a = s.classify a := by
  cases who <;> rfl

end

/-! ### Accesses that do not ask for the port -/

section
variable {s : State} {a : Access}

/-- An access that does not join place 2 is done with as it arrives, answered or held. -/
theorem State.arrive_of_stays (hb : s.busy a.who = false) (hstay : (s.arriveAt a).waitingAccesses = s.waitingAccesses) :
    s.arrive a = (s.arriveAt a).finish := by
  have halone : (s.arriveAt a).waitsAlone a.who = false := by
    cases hw : (s.arriveAt a).waitsAlone a.who with
    | false => rfl
    | true =>
      obtain ⟨x, hx, hup⟩ := State.waitsAlone_arriveAt hb hw
      have hmem : x ∈ s.waitingAccesses := by
        rw [← hstay]
        simp [State.waitingAccesses, State.waiting, hup, UpReq.access?]
      have hwho : x.who = a.who := by rcases hx with rfl | rfl <;> rfl
      exact absurd hwho (State.who_ne_of_not_busy hb hmem)
  unfold State.arrive State.grantAtOnce
  rw [if_neg (by simp [hb]), if_neg (by simp [halone])]

theorem State.waitingAccesses_of_waiting {t : State} (h : t.waiting = s.waiting) : t.waitingAccesses = s.waitingAccesses :=
  congrArg (·.1.filterMap UpReq.access?) h

/-- An access answered ERROR as it arrives. -/
theorem State.arrive_of_error (hb : s.busy a.who = false) (h : s.arriveAt a = s.answerError a) :
    s.arrive a = (s.answerError a).finish := by
  rw [State.arrive_of_stays hb, h]
  rw [h]
  exact State.waitingAccesses_of_waiting (s.answerError_waiting a)

/-- R171: a malformed access. -/
theorem State.arrive_malformed (hb : s.busy a.who = false) (hm : a.malformed = true) :
    s.arrive a = (s.answerError a).finish := by
  refine State.arrive_of_error hb ?_
  unfold State.arriveAt
  dsimp only
  rw [if_pos hm, State.clearAnswer_answerError]

/-- A well-formed access goes by its class. -/
theorem State.arriveAt_route (hr : s.bpu.rewrites = 0) (hm : a.malformed = false) :
    s.arriveAt a = (s.clearAnswer a.who).route a := by
  unfold State.arriveAt
  dsimp only
  rw [if_neg (by simp [hm]), if_neg (by simp [hr])]

theorem Access.malformed_of {a : Access} (h : a.addr % widthBytes a.width ≠ 0 ∨ Config.dramSize ≤ a.addr) :
    a.malformed = true := by
  unfold Access.malformed
  rcases h with h | h <;> simp [h]

theorem Access.not_malformed {a : Access} (h : a.addr % widthBytes a.width = 0) (hlt : a.addr < Config.dramSize) :
    a.malformed = false := by
  unfold Access.malformed
  simp [h, hlt]

/-! ### The map page (R172) -/

theorem State.classify_map {x : Nat} (h : Config.mapPage ≤ x) : s.classify x = .map := if_pos h

/-- Only the drive processor writes the map page, and only its first 272 bytes. -/
def Access.MayWriteMap (a : Access) : Prop := a.who = .drive ∧ a.addr < Config.mapPage + 272

theorem State.arrive_map_refused (hb : s.busy a.who = false) (hr : s.bpu.rewrites = 0) (hw : a.write = true)
    (hmap : Config.mapPage ≤ a.addr) (hnot : ¬ a.MayWriteMap) : s.arrive a = (s.answer a.who false []).finish := by
  have herror : s.answerError a = s.answer a.who false [] := s.answerError_write hw
  cases hm : a.malformed with
  | true => rw [State.arrive_malformed hb hm, herror]
  | false =>
    have harrives : s.arriveAt a = s.answerError a := by
      rw [State.arriveAt_route hr hm]
      unfold State.route
      rw [State.clearAnswer_classify, State.classify_map hmap, hw]
      exact (if_neg hnot).trans (s.clearAnswer_answerError a)
    rw [State.arrive_of_error hb harrives, herror]

end

/-- Settles O23: by the classification of the map page. -/
theorem linkMayNotWriteTheMap : Obligations.LinkMayNotWriteTheMap := by
  have hmap : Config.mapPage = 536866816 := rfl
  refine ⟨?link, ?beyond⟩
  case link =>
    intro s i lane part w v hb hr c hc
    have hrefused : ∀ off, s.arrive (mapWriteAt .link off w v) = (s.answer .link false []).finish :=
      fun off => (State.arrive_map_refused (a := mapWriteAt .link off w v) hb hr rfl (Nat.le_add_right _ _) fun h => nomatch h.1)
    simp only [List.mem_cons, List.not_mem_nil, or_false] at hc
    rcases hc with rfl | rfl | rfl | rfl | rfl | rfl <;> exact next_congr (hrefused _)
  case beyond =>
    intro s who addr w v hb hr _ hwho c hc
    rw [exec_writeRows hc]
    refine next_congr (State.arrive_map_refused (a := writeOf who addr w v) hb hr rfl ?_ ?_)
    · cases who with
      | drive => exact (Nat.le_add_right _ 272).trans hwho
      | link => exact hwho
    · rintro ⟨hdrive, hlt⟩
      cases who with
      | drive => exact absurd hlt (Nat.not_lt_of_le hwho)
      | link => cases hdrive

/-! ### Widths -/

/-- Every width divides the eight bytes of a block. -/
theorem add_mod_width {k : Nat} (h : k % 8 = 0) (x : Nat) (w : Width) : (k + x) % widthBytes w = x % widthBytes w := by
  cases w <;> simp only [widthBytes] <;> omega

/-- The map page begins at a block. -/
theorem mapPage_add_mod_width (off : Nat) (w : Width) : (Config.mapPage + off) % widthBytes w = off % widthBytes w :=
  add_mod_width rfl off w

/-- Settles O24: every upstream row puts its access to the port, which answers a malformed one ERROR. -/
theorem malformedAccessesRefused : Obligations.MalformedAccessesRefused := by
  intro s who w v hb
  have hwrite : ∀ (a : Access), a.who = who → a.write = true → a.malformed = true →
      s.arrive a = (s.answer who false []).finish := by
    rintro a rfl hw hm
    rw [State.arrive_malformed hb hm, s.answerError_write hw]
  have hpage : ∀ block off, block % 8 = 0 → off % widthBytes w ≠ 0 →
      s.arrive (mapWriteAt who (block + off) w v) = (s.answer who false []).finish := by
    intro block off hblock hoff
    refine hwrite _ rfl rfl (Access.malformed_of (.inl ?_))
    show (Config.mapPage + (block + off)) % widthBytes w ≠ 0
    rwa [mapPage_add_mod_width, add_mod_width hblock]
  refine ⟨fun addr haddr => ⟨fun c hc => ?_, ?_⟩, fun i lane hlane => ⟨?_, ?_⟩, fun lane =>
    ⟨fun hlane => ⟨next_congr (hpage 256 _ rfl hlane), next_congr (hpage 264 _ rfl hlane)⟩, fun hlane => ⟨?_, ?_⟩⟩⟩
  · rw [exec_writeRows hc]
    exact next_congr (hwrite _ rfl rfl (Access.malformed_of haddr))
  · have hm : (readOf who addr w).malformed = true := Access.malformed_of haddr
    exact next_congr ((State.arrive_malformed hb hm).trans (congrArg State.finish (s.answerError_read rfl)))
  · exact next_congr (hpage (16 * i.toNat) _ (by omega) hlane)
  · exact next_congr (hpage (16 * i.toNat + 8) _ (by omega) hlane)
  · have h260 := hpage 256 _ rfl hlane
    rw [← Nat.add_assoc] at h260
    exact next_congr h260
  · have h268 := hpage 264 _ rfl hlane
    rw [← Nat.add_assoc] at h268
    exact next_congr h268

end Sys2Proof.Machine
end

section
/-! Accesses granted the port as they arrive (R171, R176, R179; log entry 11), and O17, O18, O21, O25 from them. -/

namespace Sys2Proof.Machine

/-! ### The grant of an arriving access -/

/-- The state in which an access granted as it arrives is performed: its answer withdrawn, the counts moved. -/
def State.granted (s : State) (who : Initiator) : State := (s.clearAnswer who).onBpu fun b => { b with starve := s.counted }

@[simp] theorem State.granted_answer (s : State) (who : Initiator) (okay : Bool) (bytes : List Byte) :
    (s.granted who).answer who okay bytes = s.served who okay bytes := by cases who <;> rfl

section
variable {s : State} {who : Initiator} {x : Access}

/-- The access at place 2, with nothing else there. -/
theorem State.queued_upstream (hup : s.bpu.upstream = []) :
    ((s.clearAnswer who).queueAccess x).bpu.upstream = [.access x] := by
  have hclear : (s.clearAnswer who).bpu.upstream = [] := (State.upstream_of_waiting (s.clearAnswer_waiting who)).trans hup
  show (s.clearAnswer who).bpu.upstream ++ [.access x] = _
  rw [hclear]
  rfl

/-- The other requesters wait as before. -/
theorem State.queued_waits {r : Requester} (hr : r ≠ .upstream) :
    ((s.clearAnswer who).queueAccess x).waits r = s.waits r := by
  cases r with
  | upstream => exact absurd rfl hr
  | tte | pack | unpack | ring => cases who <;> rfl

theorem State.queued_starve (r : Requester) :
    ((s.clearAnswer who).queueAccess x).bpu.starve.get r = s.bpu.starve.get r := by
  cases who <;> rfl

/-- With the other counts below 64 and no urgency the arbiter chooses place 2. -/
theorem State.queued_choice (hp : s.PortFree who) : ((s.clearAnswer who).queueAccess x).choice = some .upstream := by
  obtain ⟨-, -, hup, hurgent, hlow⟩ := hp
  have hwaits : ((s.clearAnswer who).queueAccess x).waits .upstream = true := by
    show (!((s.clearAnswer who).queueAccess x).bpu.upstream.isEmpty) = true
    rw [State.queued_upstream hup]
    rfl
  have hcalm : ((s.clearAnswer who).queueAccess x).tteUrgent = false := by
    rw [← hurgent]
    cases who <;> rfl
  have hother : ∀ r, r ≠ .upstream → ((s.clearAnswer who).queueAccess x).waits r = true →
      ((s.clearAnswer who).queueAccess x).bpu.starve.get r < 64 := fun r hr hw => by
    rw [State.queued_starve]
    exact hlow r ((State.queued_waits hr).symm.trans hw)
  by_cases hstarved : 64 ≤ ((s.clearAnswer who).queueAccess x).bpu.starve.get .upstream
  · obtain ⟨r, hr, hrw, hrc⟩ := State.choice_of_starved hwaits hstarved
    by_cases hne : r = .upstream
    · rw [hr, hne]
    · exact absurd hrc (Nat.not_le_of_lt (hother r hne hrw))
  · rw [State.choice_of_not_starved, State.portOrder_of_not_urgent hcalm, List.find?_cons, hwaits]
    intro r hrw
    by_cases hne : r = .upstream
    · rw [hne]
      exact Nat.lt_of_not_le hstarved
    · exact hother r hne hrw

theorem Bpu.upstream_nil {b : Bpu} (h : b.upstream = []) : { b with upstream := [] } = b := by
  cases b
  cases h
  rfl

theorem State.queued_counts : (((s.clearAnswer who).queueAccess x).countGrant .upstream).bpu.starve = s.counted := by
  have hcount : ∀ r, r ≠ .upstream → ((s.clearAnswer who).queueAccess x).countAfter .upstream r
      = if s.waits r then s.bpu.starve.get r + 1 else 0 := fun r hr => by
    unfold State.countAfter
    rw [State.queued_waits hr, State.queued_starve]
    cases s.waits r <;> simp [hr]
  show Starve.mk _ _ _ _ _ = _
  rw [hcount .tte (by decide), hcount .pack (by decide), hcount .unpack (by decide), hcount .ring (by decide)]
  rfl

/-- The grant serves the access that has just come. -/
theorem State.queued_grant (hup : s.bpu.upstream = []) :
    ((s.clearAnswer who).queueAccess x).grant .upstream = (s.granted who).performAccess x := by
  have hserve : ((s.clearAnswer who).queueAccess x).grant .upstream
      = ((((s.clearAnswer who).queueAccess x).countGrant .upstream).onBpu fun b => { b with upstream := [] }).performAccess x := by
    show (((s.clearAnswer who).queueAccess x).countGrant .upstream).doUpstream = _
    unfold State.doUpstream
    rw [show (((s.clearAnswer who).queueAccess x).countGrant .upstream).bpu.upstream = [.access x] from State.queued_upstream hup]
  have hclear : { (s.clearAnswer who).bpu with upstream := [] } = (s.clearAnswer who).bpu :=
    Bpu.upstream_nil ((State.upstream_of_waiting (s.clearAnswer_waiting who)).trans hup)
  have hstate : (((s.clearAnswer who).queueAccess x).countGrant .upstream).onBpu (fun b => { b with upstream := [] })
      = s.granted who := by
    show (fun b : Bpu => ({ s.clearAnswer who with
      bpu := { b with starve := (((s.clearAnswer who).queueAccess x).countGrant .upstream).bpu.starve } } : State))
        ({ (s.clearAnswer who).bpu with upstream := [] } : Bpu) = _
    rw [hclear, State.queued_counts]
    rfl
  rw [hserve, hstate]

/-- An access that asks for a free port is performed in the step in which it arrives. -/
theorem State.arrive_granted {a : Access} (hp : s.PortFree a.who) (hx : x.who = a.who)
    (h : s.arriveAt a = (s.clearAnswer a.who).queueAccess x) : s.arrive a = ((s.granted a.who).performAccess x).finish := by
  have halone : ((s.clearAnswer a.who).queueAccess x).waitsAlone a.who = true := by
    unfold State.waitsAlone
    rw [State.queued_upstream hp.2.2.1]
    exact beq_iff_eq.2 hx
  unfold State.arrive State.grantAtOnce
  rw [if_neg (by simp [hp.1]), h, if_pos ⟨halone, State.queued_choice hp⟩, State.queued_grant hp.2.2.1]

end

/-! ### Writes of the drive processor to the map page (R172, R173) -/

section
variable {s : State} {off : Nat} {w : Width} (v : BitVec 64)

/-- The drive processor's write to one of the page's first 272 bytes. -/
theorem mapWriteAt_wellFormed (who : Initiator) (hoff : off < 272) (halign : off % widthBytes w = 0) :
    (mapWriteAt who off w v).malformed = false := by
  refine Access.not_malformed ((mapPage_add_mod_width off w).trans halign) ?_
  show Config.mapPage + off < Config.dramSize
  simp only [Config.mapPage, Config.dramSize]
  omega

theorem mapWriteAt_map (who : Initiator) : Config.mapPage ≤ (mapWriteAt who off w v).addr := Nat.le_add_right _ _

theorem State.arriveAt_map (hr : s.bpu.rewrites = 0) (hoff : off < 272) (halign : off % widthBytes w = 0) :
    s.arriveAt (mapWriteAt .drive off w v) = (s.clearAnswer .drive).mapAccess (mapWriteAt .drive off w v) := by
  rw [State.arriveAt_route hr (mapWriteAt_wellFormed v .drive hoff halign)]
  unfold State.route
  rw [State.clearAnswer_classify, State.classify_map (mapWriteAt_map v .drive)]
  rfl

theorem mapWriteAt_mayWrite (hoff : off < 272) :
    (mapWriteAt .drive off w v).who = .drive ∧ (mapWriteAt .drive off w v).addr < Config.mapPage + 272 :=
  ⟨rfl, Nat.add_lt_add_left hoff _⟩

theorem mapWriteAt_offset (who : Initiator) : (mapWriteAt who off w v).addr - Config.mapPage = off := Nat.add_sub_cancel_left ..

/-- A write beside the commit words is performed at once where the port is free. -/
theorem State.arrive_mapWrite (hp : s.PortFree .drive) (hoff : off < 272) (halign : off % widthBytes w = 0)
    (hno : ¬ (off < 256 ∧ 8 ≤ off % 16)) :
    s.arrive (mapWriteAt .drive off w v) = ((s.granted .drive).mapWrite (mapWriteAt .drive off w v)).finish := by
  have hcommit : (mapWriteAt .drive off w v).commitOf = none := by
    unfold Access.commitOf
    rw [mapWriteAt_offset]
    exact if_neg hno
  have hqueued : s.arriveAt (mapWriteAt .drive off w v) = (s.clearAnswer .drive).queueAccess (mapWriteAt .drive off w v) := by
    rw [State.arriveAt_map v hp.2.1 hoff halign]
    unfold State.mapAccess
    rw [if_pos (mapWriteAt_mayWrite v hoff), hcommit]
  rw [State.arrive_granted (a := mapWriteAt .drive off w v) hp rfl hqueued]
  unfold State.performAccess
  rw [if_neg (by simp [mapWriteAt]), if_pos (mapWriteAt_map v .drive)]
  rfl

end

/-- Settles O17: bytes 0 to 7 of a descriptor lie beside its commit word. -/
theorem descriptorBytesCaptured : Obligations.DescriptorBytesCaptured := by
  intro s i lane w v hp halign
  have hblock : 16 * i.toNat % 8 = 0 := by omega
  have hmod : (16 * i.toNat + lane.toNat) % 16 = lane.toNat := by omega
  have harrive := State.arrive_mapWrite (off := 16 * i.toNat + lane.toNat) (w := w) v hp (by omega)
    ((add_mod_width hblock _ w).trans halign) (by omega)
  have hwrite : (s.granted .drive).mapWrite (mapWriteAt .drive (16 * i.toNat + lane.toNat) w v)
      = ((s.granted .drive).captureWrite (16 * i.toNat + lane.toNat) (toLe (widthBytes w) v.toNat)).answer .drive true [] := by
    unfold State.mapWrite
    dsimp only
    rw [mapWriteAt_offset, if_pos (by omega), if_pos (by omega)]
    rfl
  exact next_congr (harrive.trans (congrArg State.finish hwrite))

/-! ### Commits (R173 to R175) -/

theorem ite_true_or {α : Type} (p q : Bool) (x y : α) :
    (if q = true then x else if p = true then x else y) = if (p || q) = true then x else y := by
  cases p <;> cases q <;> rfl

/-- The engines of the kinds that `p` names are told of a commit (R175, R183, R187). -/
def State.told (s : State) (p : RegionKind → Bool) : State :=
  { s with
    bpu := { s.bpu with
      ring := if p .command then s.bpu.ring.filter (fun r => r != .readPost && r != .readSlot) else s.bpu.ring }
    spm := { s.spm with slots := if p .pool then [] else s.spm.slots }
    pe := { s.pe with cursor := if p .pack then 0 else s.pe.cursor }
    ss := { s.ss with tail := if p .sensor then 0 else s.ss.tail }
    ci := { s.ci with intake := if p .command then 0 else s.ci.intake }
    cw := { s.cw with
      tail := if p .completion then 0 else s.cw.tail
      slotKinds := if p .completion then [] else s.cw.slotKinds } }

theorem State.concern_eq (s : State) (k : RegionKind) : s.concern k = s.told fun j => k == j := by cases k <;> rfl

theorem State.told_told (s : State) (p q : RegionKind → Bool) : (s.told p).told q = s.told fun j => p j || q j := by
  have hring : ∀ (x y : Bool) (l : List RingReq) (f : RingReq → Bool),
      (if y = true then (if x = true then l.filter f else l).filter f else if x = true then l.filter f else l)
        = if (x || y) = true then l.filter f else l := fun x y l f => by
    cases x <;> cases y <;> simp [List.filter_filter]
  unfold State.told
  simp only [hring, ite_true_or]

theorem State.told_none (s : State) {p : RegionKind → Bool} (h : ∀ k, p k = false) : s.told p = s := by
  unfold State.told
  simp only [h, Bool.false_eq_true, if_false]

/-- The kinds that an accepted commit concerns: the old one, and the new one where the descriptor is in effect. -/
theorem State.concern_concern (s : State) (old : RegionKind) (d : Descriptor) :
    (if d.enable && d.kind != old then (s.concern old).concern d.kind else s.concern old)
      = s.told fun k => old == k || (d.enable && d.kind == k) := by
  have hboth : s.told (fun k => old == k || (d.enable && d.kind == k))
      = (s.told fun k => old == k).told fun k => d.enable && d.kind == k := (s.told_told _ _).symm
  simp only [hboth, State.concern_eq]
  cases hen : d.enable with
  | false => exact ((s.told _).told_none fun _ => rfl).symm
  | true =>
    by_cases hk : d.kind = old
    · simp [hk, State.told_told]
    · have hne : (d.kind != old) = true := bne_iff_ne.2 hk
      simp only [hne, Bool.and_self, if_true, Bool.true_and]

section
variable {s : State} {i lane : Nat} {w : Width} (v : BitVec 64)

theorem commitOf_mapWriteAt (hi : i < 16) (hlane : lane < 8) : (mapWriteAt .drive (16 * i + 8 + lane) w v).commitOf = some i := by
  have hdiv : (16 * i + 8 + lane) / 16 = i := by omega
  unfold Access.commitOf
  rw [mapWriteAt_offset]
  dsimp only
  rw [if_pos (by omega), hdiv]

theorem State.proposed_mapWriteAt (s : State) (off : Nat) :
    s.proposed (mapWriteAt .drive off w v) i
      = ((layOver s.bpu.captured off (toLe (widthBytes w) v.toNat)).drop (16 * i)).take 16 := by
  unfold State.proposed
  rw [mapWriteAt_offset]
  rfl

/-- An accepted commit, performed as it arrives. -/
theorem State.arrive_commit (hp : s.PortFree .drive) (hi : i < 16) (hlane : lane < 8) (halign : lane % widthBytes w = 0)
    (hjudge : s.judgeCommit i (((layOver s.bpu.captured (16 * i + 8 + lane) (toLe (widthBytes w) v.toNat)).drop (16 * i)).take 16)
      = none) :
    s.arrive (mapWriteAt .drive (16 * i + 8 + lane) w v)
      = ((s.granted .drive).acceptCommit (mapWriteAt .drive (16 * i + 8 + lane) w v) i
          (((layOver s.bpu.captured (16 * i + 8 + lane) (toLe (widthBytes w) v.toNat)).drop (16 * i)).take 16)).finish := by
  have hoff : 16 * i + 8 + lane < 272 := by omega
  have haligned : (16 * i + 8 + lane) % widthBytes w = 0 := (add_mod_width (by omega) _ w).trans halign
  have hcommit := commitOf_mapWriteAt (w := w) v hi hlane
  have hqueued : s.arriveAt (mapWriteAt .drive (16 * i + 8 + lane) w v)
      = (s.clearAnswer .drive).queueAccess (mapWriteAt .drive (16 * i + 8 + lane) w v) := by
    have hjudged : (s.clearAnswer .drive).judgeCommit i
        ((s.clearAnswer .drive).proposed (mapWriteAt .drive (16 * i + 8 + lane) w v) i) = none := by
      rw [State.proposed_mapWriteAt]
      exact hjudge
    rw [State.arriveAt_map v hp.2.1 hoff haligned]
    unfold State.mapAccess
    rw [if_pos (mapWriteAt_mayWrite v hoff), hcommit]
    dsimp only
    rw [hjudged]
  have hperformed : (s.granted .drive).performAccess (mapWriteAt .drive (16 * i + 8 + lane) w v)
      = (s.granted .drive).commit (mapWriteAt .drive (16 * i + 8 + lane) w v) i := by
    have hdiv : (16 * i + 8 + lane) / 16 = i := by omega
    unfold State.performAccess
    rw [if_neg (by simp [mapWriteAt]), if_pos (mapWriteAt_map v .drive)]
    unfold State.mapWrite
    dsimp only
    rw [mapWriteAt_offset, if_pos (by omega), if_neg (by omega), hdiv]
  have hagain : (s.granted .drive).judgeCommit i
      (((layOver s.bpu.captured (16 * i + 8 + lane) (toLe (widthBytes w) v.toNat)).drop (16 * i)).take 16) = none := hjudge
  rw [State.arrive_granted (a := mapWriteAt .drive (16 * i + 8 + lane) w v) hp rfl hqueued]
  show (State.performAccess (s.granted .drive) _).finish = _
  rw [hperformed]
  unfold State.commit
  rw [State.proposed_mapWriteAt]
  change State.finish (match (s.granted .drive).judgeCommit i (((layOver s.bpu.captured _ _).drop _).take 16) with
    | none => _ | some code => _) = _
  rw [hagain]
  rfl

/-- A commit that stands to be refused is answered as it arrives. -/
theorem State.arrive_refusedCommit {code : Nat} (hb : s.busy .drive = false) (hr : s.bpu.rewrites = 0) (hi : i < 16)
    (hlane : lane < 8) (halign : lane % widthBytes w = 0)
    (hjudge : s.judgeCommit i (((layOver s.bpu.captured (16 * i + 8 + lane) (toLe (widthBytes w) v.toNat)).drop (16 * i)).take 16)
      = some code) :
    s.arrive (mapWriteAt .drive (16 * i + 8 + lane) w v)
      = (s.refuseCommit (mapWriteAt .drive (16 * i + 8 + lane) w v) i code
          (((layOver s.bpu.captured (16 * i + 8 + lane) (toLe (widthBytes w) v.toNat)).drop (16 * i)).take 16)).finish := by
  have hoff : 16 * i + 8 + lane < 272 := by omega
  have haligned : (16 * i + 8 + lane) % widthBytes w = 0 := (add_mod_width (by omega) _ w).trans halign
  have harrived : s.arriveAt (mapWriteAt .drive (16 * i + 8 + lane) w v)
      = s.refuseCommit (mapWriteAt .drive (16 * i + 8 + lane) w v) i code
          (((layOver s.bpu.captured (16 * i + 8 + lane) (toLe (widthBytes w) v.toNat)).drop (16 * i)).take 16) := by
    have hjudged : (s.clearAnswer .drive).judgeCommit i
        ((s.clearAnswer .drive).proposed (mapWriteAt .drive (16 * i + 8 + lane) w v) i) = some code := by
      rw [State.proposed_mapWriteAt]
      exact hjudge
    rw [State.arriveAt_map v hr hoff haligned]
    unfold State.mapAccess
    rw [if_pos (mapWriteAt_mayWrite v hoff), commitOf_mapWriteAt v hi hlane]
    dsimp only
    rw [hjudged, State.proposed_mapWriteAt]
    rfl
  rw [State.arrive_of_stays (a := mapWriteAt .drive (16 * i + 8 + lane) w v) hb, harrived]
  rw [harrived]
  exact State.waitingAccesses_of_waiting (s.refuseCommit_waiting ..)

end

/-- Settles O18: the commit judged as it arrives, and the engines told by kind. -/
theorem commitsTakeEffectOrChangeNothing : Obligations.CommitsTakeEffectOrChangeNothing := by
  refine ⟨fun s i lane w v hp halign => ?_, fun s i lane w v code hb hr halign => ?_⟩
  · intro off captured b d e concerns hjudge
    refine next_congr ((State.arrive_commit v hp i.isLt lane.isLt halign hjudge).trans (congrArg State.finish ?_))
    unfold State.acceptCommit
    dsimp only
    rw [State.concern_concern, mapWriteAt_offset]
    rfl
  · intro off b hjudge
    exact next_congr (State.arrive_refusedCommit v hb hr i.isLt lane.isLt halign hjudge)

end Sys2Proof.Machine
end

section
/-! The four words of the map page (R154, R172, R181, R187, R188), and O21 from them. -/

namespace Sys2Proof.Machine

/-! ### Bytes read back -/

theorem Memory.readBytes_eq : ∀ {m : List Host.Cell} {a : Nat} {bs : List Byte},
    (∀ i < bs.length, Memory.read m (a + i) = bs.getD i 0) → Memory.readBytes m a bs.length = bs
  | _, _, [], _ => rfl
  | m, a, b :: bs, h => by
    have hfirst : Memory.read m a = b := h 0 (Nat.succ_pos _)
    have hrest : Memory.readBytes m (a + 1) bs.length = bs := Memory.readBytes_eq fun i hi => by
      rw [Nat.add_assoc, Nat.add_comm 1]
      exact h (i + 1) (Nat.succ_lt_succ hi)
    rw [List.length_cons, Memory.readBytes, hfirst, hrest]

/-- What is written is read back. -/
theorem Memory.readBytes_writeBytes {m : List Host.Cell} (h : Memory.wf m = true) (a : Nat) (bs : List Byte) :
    Memory.readBytes (Memory.writeBytes m a bs) a bs.length = bs :=
  Memory.readBytes_eq fun i hi => Memory.read_writeBytes_inside bs a i h hi

theorem ofLe_toLe_word (n : Nat) : ofLe (toLe 4 n) = n % 4294967296 := by
  have hpow : (256 : Nat) ^ 4 = 4294967296 := by norm_num
  rw [← hpow]
  exact ofLe_toLe 4 n

/-! ### The words a write covers -/

theorem touchedWords_one {w : Width} (hw : w ≠ .w8) : ∀ k < 4, k % widthBytes w = 0 →
    touchedWords (256 + k) (widthBytes w) = [256] ∧ touchedWords (260 + k) (widthBytes w) = [260]
      ∧ touchedWords (264 + k) (widthBytes w) = [264] ∧ touchedWords (268 + k) (widthBytes w) = [268] := by
  cases w with
  | w1 | w2 | w4 => decide
  | w8 => exact absurd rfl hw

section
variable (s : State)

theorem State.captureWord_completion :
    s.captureWord 256 = ((s.onCw fun c => { c with head := s.mapWord 256 }).tryRecord).judgeAttn := if_pos rfl

theorem State.captureWord_sensor : s.captureWord 260 = (s.onSs fun x => { x with head := s.mapWord 260 }).judgeAttn :=
  (if_neg (by decide)).trans (if_pos rfl)

theorem State.captureWord_mask : s.captureWord 264 = (s.onCw fun c => { c with mask := s.mapWord 264 }).judgeAttn :=
  (if_neg (by decide)).trans ((if_neg (by decide)).trans (if_pos rfl))

theorem State.captureWord_reset : s.captureWord 268 = if s.mapWord 268 = 1 then s.controllerReset else s := by
  unfold State.captureWord
  simp

theorem State.tryRecord_ss : s.tryRecord.ss = s.ss := by
  unfold State.tryRecord
  split <;> rfl

theorem State.tryRecord_mapWord (off : Nat) : s.tryRecord.mapWord off = s.mapWord off := by
  unfold State.mapWord
  rw [State.dram_of_rest s.tryRecord_rest]
  rfl

end

/-- The write performed, before a word of it is captured. -/
def State.put (s : State) (off : Nat) (w : Width) (v : BitVec 64) : State :=
  { s.served .drive true [] with dram := storeAt s.dram (Config.mapPage + off) w v }

/-- A write to the words: performed, then each word that it covers captured. -/
theorem State.arrive_words {s : State} {off : Nat} {w : Width} (v : BitVec 64) (hp : s.PortFree .drive) (hlow : 256 ≤ off)
    (hoff : off < 272) (halign : off % widthBytes w = 0) :
    s.arrive (mapWriteAt .drive off w v)
      = ((touchedWords off (widthBytes w)).foldl State.captureWord (s.put off w v)).finish := by
  rw [State.arrive_mapWrite v hp hoff halign (by omega)]
  unfold State.mapWrite
  dsimp only
  rw [mapWriteAt_offset, if_neg (by omega)]
  rfl

/-- The words begin at multiples of four bytes. -/
theorem add_mod_width_word {block k : Nat} {w : Width} (hb : block % 4 = 0) (hw : w ≠ .w8) (hk : k % widthBytes w = 0) :
    (block + k) % widthBytes w = 0 := by
  cases w with
  | w1 | w2 | w4 => simp only [widthBytes] at hk ⊢; omega
  | w8 => exact absurd rfl hw

/-- A write of eight bytes to the words is aligned only at their first byte. -/
theorem lane_of_w8 {lane : BitVec 2} (h : lane.toNat % widthBytes .w8 = 0) : lane = 0 := by
  have : lane.toNat < 4 := lane.isLt
  have hzero : lane.toNat = 0 := by
    simp only [widthBytes] at h
    omega
  exact BitVec.eq_of_toNat_eq hzero

section
variable {s : State} {lane : BitVec 2} {w : Width} (v : BitVec 64)

/-- A write within one word captures that word. -/
theorem State.arrive_word (hp : s.PortFree .drive) (hw : w ≠ .w8) (halign : lane.toNat % widthBytes w = 0) :
    ∀ block ∈ [256, 260, 264, 268], s.arrive (mapWriteAt .drive (block + lane.toNat) w v)
      = ((s.put (block + lane.toNat) w v).captureWord block).finish := by
  have hlane : lane.toNat < 4 := lane.isLt
  obtain ⟨h256, h260, h264, h268⟩ := touchedWords_one hw lane.toNat hlane halign
  have harrive : ∀ block, block % 4 = 0 → 256 ≤ block → block ≤ 268 →
      touchedWords (block + lane.toNat) (widthBytes w) = [block] →
      s.arrive (mapWriteAt .drive (block + lane.toNat) w v) = ((s.put (block + lane.toNat) w v).captureWord block).finish := by
    intro block hblock hlow hhigh htouched
    rw [State.arrive_words v hp (by omega) (by omega) (add_mod_width_word hblock hw halign), htouched]
    rfl
  simp only [List.mem_cons, List.not_mem_nil, or_false]
  rintro block (rfl | rfl | rfl | rfl)
  · exact harrive 256 (by decide) (by decide) (by decide) h256
  · exact harrive 260 (by decide) (by decide) (by decide) h260
  · exact harrive 264 (by decide) (by decide) (by decide) h264
  · exact harrive 268 (by decide) (by decide) (by decide) h268

/-- A write of eight bytes captures two words, the lower first. -/
theorem State.arrive_twoWords (hp : s.PortFree .drive) :
    s.arrive (mapWriteAt .drive 256 .w8 v) = (((s.put 256 .w8 v).captureWord 256).captureWord 260).finish
      ∧ s.arrive (mapWriteAt .drive 264 .w8 v) = (((s.put 264 .w8 v).captureWord 264).captureWord 268).finish := by
  have hcompletion : touchedWords 256 (widthBytes .w8) = [256, 260] := by decide
  have hmask : touchedWords 264 (widthBytes .w8) = [264, 268] := by decide
  constructor
  · rw [State.arrive_words v hp (by decide) (by decide) (by decide), hcompletion, List.foldl_cons, List.foldl_cons, List.foldl_nil]
  · rw [State.arrive_words v hp (by decide) (by decide) (by decide), hmask, List.foldl_cons, List.foldl_cons, List.foldl_nil]

/-- Four bytes written to a word are the word. -/
theorem State.put_mapWord (hm : s.MemoryOk) (off : Nat) : (s.put off .w4 v).mapWord off = v.toNat % 4294967296 := by
  have hdram : (s.put off .w4 v).dram = Memory.writeBytes s.dram (Config.mapPage + off) (toLe 4 v.toNat) := rfl
  have hread := Memory.readBytes_writeBytes hm.1 (Config.mapPage + off) (toLe 4 v.toNat)
  rw [toLe_length] at hread
  unfold State.mapWord
  rw [hdram, hread]
  exact ofLe_toLe_word _

end

/-- Settles O21: the words that a write covers, each as it stands in DRAM then. -/
theorem mapWordsAreCaptured : Obligations.MapWordsAreCaptured := by
  refine ⟨fun s lane w v hp halign => ?_, fun s lane w v hp hw halign => ?_⟩
  · intro e word put
    have hput : ∀ off, put off = s.put (off + lane.toNat) w v := fun off => by
      show ({ e with dram := storeAt s.dram (Config.mapPage + off + lane.toNat) w v } : State) = _
      rw [Nat.add_assoc]
      rfl
    have hword : ∀ off k, word off k = (put off).mapWord k := fun _ _ => rfl
    refine ⟨fun hw => ?_, fun hm => ?_, fun hw => ?_⟩
    · have hone := State.arrive_word v hp hw halign
      refine ⟨next_congr ?_, next_congr ?_, next_congr ?_⟩
      · rw [hword, hput, hone 256 (by decide), State.captureWord_completion]
        rfl
      · rw [hword, hput, hone 260 (by decide), State.captureWord_sensor]
        rfl
      · rw [hword, hput, hone 264 (by decide), State.captureWord_mask]
        rfl
    · have hone := State.arrive_word (lane := 0) v hp (w := .w4) (by decide) rfl 256 (by decide)
      refine next_congr (hone.trans (congrArg State.finish ?_))
      rw [State.captureWord_completion, ← State.put_mapWord v hm 256]
      rfl
    · subst hw
      obtain rfl := lane_of_w8 halign
      obtain ⟨hcompletion, hmask⟩ := State.arrive_twoWords v hp
      intro h m
      refine ⟨next_congr (hcompletion.trans (congrArg State.finish ?_)), next_congr (hmask.trans (congrArg State.finish ?_))⟩
      · have hfirst : (s.put 256 .w8 v).captureWord 256 = h := by
          rw [State.captureWord_completion]
          rfl
        have hss : h.ss = s.ss := State.tryRecord_ss _
        have hsecond : h.mapWord 260 = word 256 260 := State.tryRecord_mapWord _ 260
        rw [hfirst, State.captureWord_sensor, hsecond]
        unfold State.onSs
        rw [hss]
      · have hfirst : (s.put 264 .w8 v).captureWord 264 = m := by
          rw [State.captureWord_mask]
          rfl
        rw [hfirst, State.captureWord_reset]
        rfl
  · intro e
    have hone := State.arrive_word v hp hw halign 268 (by decide)
    refine next_congr (hone.trans (congrArg State.finish ?_))
    have hput : s.put (268 + lane.toNat) w v = e := by
      show ({ s.served .drive true [] with dram := storeAt s.dram (Config.mapPage + (268 + lane.toNat)) w v } : State) = _
      rw [← Nat.add_assoc]
    rw [hput, State.captureWord_reset]
    rfl

end Sys2Proof.Machine
end

section
/-! What becomes of an upstream access by the kind of its region (R34, R41, R42, R96, R176 to R178): O25, O27, O29 and O30. -/

namespace Sys2Proof.Machine

/-! ### Arriving at a region -/

section
variable {s : State} {a : Access}

theorem State.mapPage_of_region {x i : Nat} {d : Descriptor} (h : s.classify x = .region i d) : ¬ Config.mapPage ≤ x := by
  intro hmap
  rw [State.classify_map hmap] at h
  cases h

theorem State.arriveAt_region_write {i : Nat} {d : Descriptor} (hr : s.bpu.rewrites = 0) (hm : a.malformed = false)
    (hw : a.write = true) (hc : s.classify a.addr = .region i d) :
    s.arriveAt a = (s.clearAnswer a.who).regionWrite a i d := by
  rw [State.arriveAt_route hr hm]
  unfold State.route
  rw [State.clearAnswer_classify, hc, hw]

/-- An access that finds others waiting at place 2 waits behind them. -/
theorem State.arrive_waits {x : Access} (hb : s.busy a.who = false) (hup : s.bpu.upstream ≠ [])
    (h : s.arriveAt a = (s.clearAnswer a.who).queueAccess x) : s.arrive a = ((s.clearAnswer a.who).queueAccess x).finish := by
  have hupstream : ((s.clearAnswer a.who).queueAccess x).bpu.upstream = s.bpu.upstream ++ [.access x] := by
    show (s.clearAnswer a.who).bpu.upstream ++ [UpReq.access x] = _
    rw [State.upstream_of_waiting (s.clearAnswer_waiting a.who)]
    rfl
  have halone : ((s.clearAnswer a.who).queueAccess x).waitsAlone a.who = false := by
    unfold State.waitsAlone
    rw [hupstream]
    obtain ⟨r, rest, hrest⟩ := List.exists_cons_of_ne_nil hup
    rw [hrest]
    cases rest <;> cases r <;> rfl
  unfold State.arrive State.grantAtOnce
  rw [if_neg (by simp [hb]), h, if_neg (by simp [halone])]

/-! ### Posting (R177) -/

/-- Posting looks at the lines alone. -/
theorem State.clearAnswer_post (who : Initiator) :
    (s.clearAnswer who).bpu.post a = (s.bpu.post a).map fun b => (({ s with bpu := b } : State).clearAnswer who).bpu := by
  have hup : (s.clearAnswer who).bpu.upstream = s.bpu.upstream := State.upstream_of_waiting (s.clearAnswer_waiting who)
  have hlines : (s.clearAnswer who).bpu.lines = s.bpu.lines := by rw [Bpu.lines, Bpu.lines, hup]
  unfold Bpu.post
  rw [hup, hlines]
  split
  · cases who <;> rfl
  · split
    · cases who <;> rfl
    · rfl

theorem State.postWrite_of_some {b : Bpu} (h : s.bpu.post a = some b) :
    (s.clearAnswer a.who).postWrite a = (({ s with bpu := b } : State).answer a.who true []).showCommand a := by
  unfold State.postWrite
  rw [State.clearAnswer_post, h]
  show ((({ s with bpu := b } : State).clearAnswer a.who).answer a.who true []).showCommand a = _
  rw [State.clearAnswer_answer]

theorem State.postWrite_of_none (h : s.bpu.post a = none) :
    (s.clearAnswer a.who).postWrite a = (s.clearAnswer a.who).onBpu fun b =>
      { b with held := b.held ++ [{ access := a, why := .line, descriptor := none, timer := none }] } := by
  unfold State.postWrite
  rw [State.clearAnswer_post, h]
  rfl

theorem State.postWrite_waitingAccesses (s : State) (a : Access) : (s.postWrite a).waitingAccesses = s.waitingAccesses := by
  unfold State.postWrite
  split
  · next b hb =>
    have hw : (((s.onBpu fun _ => b).answer a.who true []).showCommand a).waiting = (b.upstream, s.cml) := by
      rw [State.showCommand_waiting, State.answer_waiting]
      rfl
    unfold State.waitingAccesses
    rw [hw]
    exact Bpu.post_accesses hb
  · rfl

/-- A write that is to be posted is posted or held as it arrives. -/
theorem State.arrive_post (hb : s.busy a.who = false) (h : s.arriveAt a = (s.clearAnswer a.who).postWrite a) :
    s.arrive a = ((s.clearAnswer a.who).postWrite a).finish := by
  rw [State.arrive_of_stays hb, h]
  rw [h, State.postWrite_waitingAccesses]
  exact State.waitingAccesses_of_waiting (s.clearAnswer_waiting a.who)

end

/-! ### Writes by kind (R34, R176) -/

section
variable {s : State} {who : Initiator} {addr : Nat} {w : Width} (v : BitVec 64)

theorem writeOf_wellFormed (h : s.Arrives who addr w) : (writeOf who addr w v).malformed = false :=
  Access.not_malformed h.2.2.1 h.2.2.2

/-- An unposted write outside the map page, performed at its grant. -/
theorem State.performAccess_write {x : Access} (hw : x.write = true) (hmap : ¬ Config.mapPage ≤ x.addr) :
    (s.granted x.who).performAccess x
      = if (s.granted x.who).writable x = true then
          { s.served x.who true [] with dram := Memory.writeBytes s.dram x.addr x.bytes }
        else s.served x.who false [] := by
  unfold State.performAccess
  rw [if_neg (by simp [hw]), if_neg hmap]
  split
  · cases x.who <;> rfl
  · rw [State.answerError_write _ hw, State.granted_answer]

theorem State.posted_arriveAt (h : s.Arrives who addr w) (hmap : addr < Config.mapPage)
    (hkind : ∀ i d, s.classify addr = .region i d → d.allows who = true ∧ (d.kind = .plain ∨ d.kind = .command)) :
    s.arriveAt (writeOf who addr w v) = (s.clearAnswer who).postWrite (writeOf who addr w v) := by
  rw [State.arriveAt_route h.2.1 (writeOf_wellFormed v h)]
  unfold State.route
  rw [State.clearAnswer_classify]
  show (match s.classify addr, true with
    | .map, true => _ | .region i d, true => _ | .unmapped, true => _ | .region i d, false => _ | _, false => _) = _
  cases hc : s.classify addr with
  | map =>
    unfold State.classify at hc
    rw [if_neg (Nat.not_le_of_lt hmap)] at hc
    split at hc <;> cases hc
  | unmapped => rfl
  | region i d =>
    obtain ⟨hallow, hplain⟩ := hkind i d hc
    show State.regionWrite _ _ i d = _
    unfold State.regionWrite
    rw [if_neg (by simp [writeOf, hallow])]
    rcases hplain with hk | hk <;> rw [hk] <;> rfl

theorem State.regionWrite_refused {a : Access} {i : Nat} {d : Descriptor}
    (h : d.allows a.who = false ∨ d.kind = .completion ∨ d.kind = .sensor) : s.regionWrite a i d = s.answerError a := by
  unfold State.regionWrite
  cases hallow : d.allows a.who with
  | false => rfl
  | true =>
    rcases h with h | h | h
    · rw [hallow] at h
      cases h
    · rw [h]
      rfl
    · rw [h]
      rfl

/-- The classes whose writes ask for the port go there marked with their class (log entry 17). -/
theorem State.regionWrite_queued {a : Access} {i : Nat} {d : Descriptor} (hallow : d.allows a.who = true) (ha : a.pool = false)
    (h : d.kind = .unpack ∨ d.kind = .pool) : s.regionWrite a i d = s.queueAccess { a with pool := d.kind == .pool } := by
  unfold State.regionWrite
  rw [hallow]
  rcases h with h | h
  · rw [h]
    show s.queueAccess a = s.queueAccess { a with pool := false }
    rw [← ha]
  · rw [h]
    rfl

end

/-- Settles O25: the classes one by one. -/
theorem upstreamWritesByKind : Obligations.UpstreamWritesByKind := by
  refine ⟨fun s who addr w v h hmap hkind => ?_, fun s who addr w v i d h hclass => ?_⟩
  · intro a c hc
    have harrive := State.arrive_post (a := a) h.1 (State.posted_arriveAt v h hmap hkind)
    rw [exec_writeRows hc]
    refine ⟨fun b hb => next_congr ?_, fun hb => next_congr ?_⟩
    · rw [harrive, State.postWrite_of_some hb]
      rfl
    · rw [harrive, State.postWrite_of_none hb]
      rfl
  · intro c hc
    have hat := State.arriveAt_region_write (a := writeOf who addr w v) h.2.1 (writeOf_wellFormed v h) rfl hclass
    have hmap := State.mapPage_of_region hclass
    have hqueued : d.allows who = true → d.kind = .unpack ∨ d.kind = .pool → s.arriveAt (writeOf who addr w v)
        = (s.clearAnswer who).queueAccess { writeOf who addr w v with pool := d.kind == .pool } :=
      fun hallow hk => hat.trans (State.regionWrite_queued (a := writeOf who addr w v) hallow rfl hk)
    have hgrant : s.PortFree who → d.allows who = true → d.kind = .unpack ∨ d.kind = .pool → s.arrive (writeOf who addr w v)
        = State.finish (if (s.granted who).writable { writeOf who addr w v with pool := d.kind == .pool } = true then
            { s.served who true [] with dram := storeAt s.dram addr w v } else s.served who false []) :=
      fun hp hallow hk => by
        rw [State.arrive_granted (a := writeOf who addr w v) (x := { writeOf who addr w v with pool := d.kind == .pool }) hp rfl
          (hqueued hallow hk)]
        exact congrArg State.finish
          (State.performAccess_write (x := { writeOf who addr w v with pool := d.kind == .pool }) rfl hmap)
    rw [exec_writeRows hc]
    refine ⟨fun hrefused => next_congr ?_, fun hp hallow hk => next_congr ?_, fun hp hallow hk => ?_,
      fun hup hallow hk => next_congr ?_⟩
    · have herror : s.arriveAt (writeOf who addr w v) = s.answerError (writeOf who addr w v) :=
        (hat.trans (State.regionWrite_refused hrefused)).trans (s.clearAnswer_answerError _)
      exact (State.arrive_of_error (a := writeOf who addr w v) h.1 herror).trans (congrArg State.finish (s.answerError_write rfl))
    · rw [hgrant hp hallow (.inl hk), hk]
      rfl
    · have hfree : (s.granted who).writable { writeOf who addr w v with pool := d.kind == .pool } = s.inFreeSlot addr := by
        rw [hk]
        cases who <;> rfl
      have harrive := hgrant hp hallow (.inr hk)
      rw [hfree] at harrive
      refine (next_congr harrive).trans ?_
      split <;> rfl
    · exact State.arrive_waits (a := writeOf who addr w v) h.1 hup (hqueued hallow hk)

/-! ### Pack writes (R41, R42, R178) -/

section
variable {s : State}

/-- An access left to be held, by its descriptor's mode. -/
theorem State.holdAccess_arriving (a : Access) (why : HoldWhy) (i : Nat) (d : Descriptor) :
    (s.clearAnswer a.who).holdAccess a why i d = s.leftHeld a why i d := by
  unfold State.holdAccess State.leftHeld
  cases d.mode with
  | refuse => exact s.clearAnswer_answerError a
  | wait => rfl
  | limit =>
    dsimp only
    rw [Nat.mul_comm]
    rfl

/-- A pack write's outcome, by the cases of R41 and R42 in their order. -/
theorem State.handPack_arriving {a : Access} (hw : a.write = true) (i : Nat) (d : Descriptor) :
    (s.clearAnswer a.who).handPack a i d =
      if s.spm.direction = .writeFailed then s.answer a.who false []
      else if a.addr - d.base ≠ s.pe.cursor then { s.answer a.who false [] with pe := s.pe.refuse }
      else if s.pe.remaining = 0 then s.leftHeld a .pack i d
      else if s.pe.remaining < widthBytes a.width then s.answer a.who false []
      else if 256 < s.pe.fifo.length + widthBytes a.width then s.leftHeld a .pack i d
      else { s.answer a.who true [] with
             pe := { s.pe with
               fifo := s.pe.fifo ++ a.bytes
               cursor := if 4096 * d.pages ≤ s.pe.cursor + widthBytes a.width then 0
                 else s.pe.cursor + widthBytes a.width }.count (widthBytes a.width) } := by
  have hheld := State.holdAccess_arriving (s := s) a .pack i d
  have herror : (s.clearAnswer a.who).answerError a = s.answer a.who false [] :=
    (s.clearAnswer_answerError a).trans (s.answerError_write hw)
  have hexam : (s.clearAnswer a.who).examinePack (a.addr - d.base) (widthBytes a.width)
      = s.examinePack (a.addr - d.base) (widthBytes a.width) := rfl
  have hsize : d.bytes = 4096 * d.pages := Nat.mul_comm _ _
  unfold State.handPack State.tryPack
  rw [hexam]
  unfold State.examinePack
  by_cases hfailed : s.spm.direction = .writeFailed
  · rw [if_pos hfailed, if_pos hfailed]
    exact herror
  rw [if_neg hfailed, if_neg hfailed]
  by_cases hcursor : a.addr - d.base ≠ s.pe.cursor
  · rw [if_pos hcursor, if_pos hcursor]
    show ((s.clearAnswer a.who).onPe Pe.refuse).answerError a = _
    rw [State.answerError_write _ hw]
    cases a.who <;> rfl
  rw [if_neg hcursor, if_neg hcursor]
  by_cases hnone : s.pe.remaining = 0
  · rw [if_pos hnone, if_pos hnone]
    exact hheld
  rw [if_neg hnone, if_neg hnone]
  by_cases hshort : s.pe.remaining < widthBytes a.width
  · rw [if_pos hshort, if_pos hshort]
    exact herror
  rw [if_neg hshort, if_neg hshort]
  by_cases hfull : 256 < s.pe.fifo.length + widthBytes a.width
  · have hfull' : Config.smallFifo < s.pe.fifo.length + widthBytes a.width := hfull
    rw [if_pos hfull', if_pos hfull]
    exact hheld
  · have hfull' : ¬ Config.smallFifo < s.pe.fifo.length + widthBytes a.width := hfull
    rw [if_neg hfull', if_neg hfull, ← hsize]
    show ((s.clearAnswer a.who).onPe fun p => p.take a.bytes d.bytes).answer a.who true [] = _
    unfold Pe.take
    rw [a.bytes_length]
    cases a.who <;> rfl

end

/-- Settles O27: the cases of the examination in their order. -/
theorem packWriteExamined : Obligations.PackWriteExamined := by
  intro s who addr w v i d h hclass hk hallow
  dsimp only
  intro c hc
  have hat : s.arriveAt (writeOf who addr w v) = (s.clearAnswer who).handPack (writeOf who addr w v) i d := by
    rw [State.arriveAt_region_write (a := writeOf who addr w v) h.2.1 (writeOf_wellFormed v h) rfl hclass]
    unfold State.regionWrite
    rw [if_neg (by simp [writeOf, hallow]), hk]
    rfl
  have hstay : (s.arriveAt (writeOf who addr w v)).waitingAccesses = s.waitingAccesses := by
    rw [hat]
    exact State.waitingAccesses_of_waiting ((State.handPack_waiting ..).trans (s.clearAnswer_waiting who))
  rw [exec_writeRows hc]
  refine next_congr ?_
  rw [State.arrive_of_stays (a := writeOf who addr w v) h.1 hstay, hat]
  exact congrArg State.finish (State.handPack_arriving (a := writeOf who addr w v) rfl i d)

/-! ### Reads (R96, R176 to R178) -/

theorem State.seenBytes_congr {s t : State} (h : ∀ x, t.seen x = s.seen x) : ∀ (n a : Nat), t.seenBytes a n = s.seenBytes a n
  | 0, _ => rfl
  | n + 1, a => by rw [State.seenBytes, State.seenBytes, h, State.seenBytes_congr h n]

section
variable {s : State} {who : Initiator} {addr : Nat} {w : Width}

theorem readOf_wellFormed (h : s.Arrives who addr w) : (readOf who addr w).malformed = false :=
  Access.not_malformed h.2.2.1 h.2.2.2

/-- A read that no aperture takes asks for the port. -/
theorem State.arriveAt_passing (h : s.Arrives who addr w)
    (hkind : ∀ i d, s.classify addr = .region i d → d.kind ≠ .unpack ∨ d.allows who = false) :
    s.arriveAt (readOf who addr w) = (s.clearAnswer who).queueAccess (readOf who addr w) := by
  rw [State.arriveAt_route h.2.1 (readOf_wellFormed h)]
  unfold State.route
  rw [State.clearAnswer_classify]
  change (match s.classify addr, false with
    | .map, true => _ | .region i d, true => _ | .unmapped, true => _ | .region i d, false => _ | _, false => _) = _
  cases hc : s.classify addr with
  | map => rfl
  | unmapped => rfl
  | region i d =>
    refine if_neg fun hunpack => ?_
    obtain ⟨hk, hallow⟩ := hunpack
    rcases hkind i d hc with hne | hno
    · exact hne hk
    · rw [show d.allows who = true from hallow] at hno
      cases hno

/-- A read granted the port. -/
theorem State.performAccess_read (s : State) (who : Initiator) (addr : Nat) (w : Width) :
    (s.granted who).performAccess (readOf who addr w) = s.served who true (s.seenBytes addr (widthBytes w)) := by
  have hseen : (s.granted who).seenBytes addr (widthBytes w) = s.seenBytes addr (widthBytes w) :=
    State.seenBytes_congr (fun _ => by cases who <;> rfl) _ _
  unfold State.performAccess
  rw [← hseen]
  exact s.granted_answer who true _

/-- An unpack read's outcome, by the cases of R96 in their order. -/
theorem State.handUnpack_arriving (s : State) (who : Initiator) (addr : Nat) (w : Width) (i : Nat) (d : Descriptor) :
    (s.clearAnswer who).handUnpack (readOf who addr w) i d =
      if s.ue.state = .idle then s.leftHeld (readOf who addr w) .unpack i d
      else if addr - d.base ≠ s.ue.cursor % (4096 * d.pages) ∨ s.ue.length < s.ue.cursor + widthBytes w then
        s.answer who false (zeros (widthBytes w))
      else if s.ue.state = .opening then s.leftHeld (readOf who addr w) .unpack i d
      else if widthBytes w ≤ s.ue.output.length ∨ (s.ue.record.map fun r => r.produced == r.raw).getD false = true then
        let e := s.answer who true (s.ue.output.take (widthBytes w) ++ zeros (widthBytes w - s.ue.output.length))
        if s.ue.cursor + widthBytes w = s.ue.length then
          State.finishDelivery { e with ue := { s.ue with cursor := s.ue.cursor + widthBytes w, output := [], state := .finishing } }
        else { e with ue := { s.ue with cursor := s.ue.cursor + widthBytes w, output := s.ue.output.drop (widthBytes w) } }
      else s.leftHeld (readOf who addr w) .unpack i d := by
  have hheld := State.holdAccess_arriving (s := s) (readOf who addr w) .unpack i d
  have herror : (s.clearAnswer who).answerError (readOf who addr w) = s.answer who false (zeros (widthBytes w)) :=
    (s.clearAnswer_answerError (readOf who addr w)).trans (s.answerError_read rfl)
  have hexam : (s.clearAnswer who).examineUnpack (addr - d.base) (widthBytes w) d.bytes
      = s.examineUnpack (addr - d.base) (widthBytes w) d.bytes := rfl
  have hsize : d.bytes = 4096 * d.pages := Nat.mul_comm _ _
  unfold State.handUnpack State.tryUnpack
  change Option.getD (match (s.clearAnswer who).examineUnpack (addr - d.base) (widthBytes w) d.bytes with
    | .answer bytes => _ | .error => _ | .hold => _) _ = _
  rw [hexam, ← hsize]
  unfold State.examineUnpack
  dsimp only
  by_cases hidle : s.ue.state = .idle
  · rw [if_pos hidle, if_pos hidle]
    exact hheld
  rw [if_neg hidle, if_neg hidle]
  by_cases hcursor : addr - d.base ≠ s.ue.cursor % d.bytes
  · rw [if_pos hcursor, if_pos (.inl hcursor)]
    exact herror
  rw [if_neg hcursor]
  by_cases hlong : s.ue.length < s.ue.cursor + widthBytes w
  · rw [if_pos hlong, if_pos (.inr hlong)]
    exact herror
  rw [if_neg hlong, if_neg (not_or.2 ⟨hcursor, hlong⟩)]
  by_cases hopening : s.ue.state = .opening
  · rw [if_pos hopening, if_pos hopening]
    exact hheld
  rw [if_neg hopening, if_neg hopening]
  by_cases hready : widthBytes w ≤ s.ue.output.length ∨ (s.ue.record.map fun r => r.produced == r.raw).getD false = true
  · rw [if_pos hready, if_pos hready]
    show ((s.clearAnswer who).answer who true _).unpackTaken (widthBytes w) = _
    rw [State.clearAnswer_answer]
    have hue : (s.answer who true (s.ue.output.take (widthBytes w) ++ zeros (widthBytes w - s.ue.output.length))).ue = s.ue := by
      cases who <;> rfl
    generalize s.answer who true (s.ue.output.take (widthBytes w) ++ zeros (widthBytes w - s.ue.output.length)) = e at hue
    unfold State.unpackTaken State.onUe
    simp only [hue]
    split <;> rfl
  · rw [if_neg hready, if_neg hready]
    exact hheld

end

/-- Settles O29: an aperture read by its cases, any other at its grant. -/
theorem upstreamReads : Obligations.UpstreamReads := by
  intro s who addr w h
  refine ⟨fun hkind hp => next_congr ?_, fun i d hclass hk hallow => next_congr ?_⟩
  · exact (State.arrive_granted (a := readOf who addr w) hp rfl (State.arriveAt_passing h hkind)).trans
      (congrArg State.finish (s.performAccess_read who addr w))
  · have hat : s.arriveAt (readOf who addr w) = (s.clearAnswer who).handUnpack (readOf who addr w) i d := by
      rw [State.arriveAt_route h.2.1 (readOf_wellFormed h)]
      unfold State.route
      rw [State.clearAnswer_classify, show s.classify (readOf who addr w).addr = .region i d from hclass]
      exact if_pos ⟨hk, hallow⟩
    have hstay : (s.arriveAt (readOf who addr w)).waitingAccesses = s.waitingAccesses := by
      rw [hat]
      exact State.waitingAccesses_of_waiting ((State.handUnpack_waiting ..).trans (s.clearAnswer_waiting who))
    exact (State.arrive_of_stays (a := readOf who addr w) h.1 hstay).trans
      (congrArg State.finish (hat.trans (s.handUnpack_arriving who addr w i d)))

/-- Settles O30: the held access that the initiator has with a limit is taken out and answered. -/
theorem holdLimitRunsOut : Obligations.HoldLimitRunsOut := by
  intro s who h n hfind htimer
  have hwho : h.access.who = who := by
    have hp := List.find?_some hfind
    simp only [Bool.and_eq_true, beq_iff_eq] at hp
    exact hp.1
  show execHoldLimitExpiry who s = _
  unfold execHoldLimitExpiry
  rw [hfind]
  refine next_congr ?_
  rw [htimer]
  unfold State.unhold
  rw [hwho]
  rfl

end Sys2Proof.Machine
end

section
/-! Configuration commands taken and run (R24, R32, R45, R155, R156, R166, R167, R170, R182): O10, O11, O13, O15 and O16. -/

namespace Sys2Proof.Machine

/-! ### A command run in the step that takes it -/

section
variable {s : State} {flags : BitVec 8} (tag : BitVec 16) {cmd : HostCmd}

/-- A sound configuration command taken is dispatched by its kind. -/
theorem command_runs (h : s.Takes flags) (hg : cmd.group = .configuration) (hc : ∀ k, cmd ≠ .unknown k) :
    s.command tag flags cmd = State.finish
      (match (s.entry tag flags cmd).cmd with
        | .setPool n => (s.join (s.entry tag flags cmd)).runSetPool s.ci.nextId n
        | .setCompression v => (s.join (s.entry tag flags cmd)).runSetCompression s.ci.nextId v
        | .setSealInterval v => (s.join (s.entry tag flags cmd)).runSetSealInterval s.ci.nextId v
        | .sensorPlan p => (s.join (s.entry tag flags cmd)).runSensorPlan s.ci.nextId p
        | .setHealth v => (s.join (s.entry tag flags cmd)).runSetHealth s.ci.nextId v
        | .queryHealth => (s.join (s.entry tag flags cmd)).runQueryHealth s.ci.nextId
        | .loopback i => (s.join (s.entry tag flags cmd)).runLoopback s.ci.nextId i
        | .close => (s.join (s.entry tag flags cmd)).runClose s.ci.nextId
        | .abort => (s.join (s.entry tag flags cmd)).runAbort s.ci.nextId
        | _ => (s.join (s.entry tag flags cmd)).completeBare s.ci.nextId .refusedArgument) := by
  rw [command_configuration h tag hg]
  unfold State.runConfig
  rw [entry_sound h tag hc, if_neg Bool.false_ne_true]
  rfl

/-- A command refused in the step that takes it. -/
theorem refused_join (h : s.Takes flags) (r : Result) :
    (s.join (s.entry tag flags cmd)).completeBare s.ci.nextId r = s.takenDone tag flags cmd r noDetail noDetail :=
  completeBare_join s tag flags cmd r h.1

/-- A configuration command that starts to run in the step that takes it. -/
theorem running_configuration (e : State) (flags : BitVec 8) (hn : e.ci.Numbered) (hg : cmd.group = .configuration) :
    (e.join (e.entry tag flags cmd)).setStage e.ci.nextId .running = e.takenOut tag flags cmd .running := by
  simp only [State.setStage, State.takenOut, State.onCi, State.join, State.newTaken, State.newEntry, List.map_append,
    map_fresh hn.1, hg]
  simp

end

/-! ### Settings (R24, R32, R45) -/

section
variable {s : State} {flags : BitVec 8} (tag : BitVec 16)

theorem runSetPool_join (h : s.Takes flags) (n : Nat) :
    (s.join (s.entry tag flags (.setPool n))).runSetPool s.ci.nextId n =
      if s.spm.direction ≠ .none ∨ s.tte.loopback.isSome = true then
        s.takenDone tag flags (.setPool n) .refusedState noDetail noDetail
      else if n < 8 ∨ 384 < n ∨ ((s.region .pool).map fun d => d.pages / 256).getD 0 < n then
        s.takenDone tag flags (.setPool n) .refusedArgument noDetail noDetail
      else
        State.takenDone { s with spm := { s.spm with slots := List.replicate n Slot.empty } } tag flags (.setPool n) .ok
          (dv 8 n) (dv 8 (((s.region .pool).map fun d => d.pages / 256).getD 0)) := by
  have hlaid := complete_join { s with spm := { s.spm with slots := List.replicate n Slot.empty } } tag flags (.setPool n) .ok
    (dv 8 n) (dv 8 (((s.region .pool).map fun d => d.pages / 256).getD 0)) h.1
  rw [← refused_join tag h, ← refused_join tag h, ← hlaid]
  rfl

theorem runSetCompression_join (h : s.Takes flags) (v : Nat) :
    (s.join (s.entry tag flags (.setCompression v))).runSetCompression s.ci.nextId v =
      if 1 < v then s.takenDone tag flags (.setCompression v) .refusedArgument noDetail noDetail
      else
        State.takenDone { s with pe := { s.pe with compression := v == 1 } } tag flags (.setCompression v) .ok
          (dv 1 v ++ du 7) noDetail := by
  have hset := complete_join { s with pe := { s.pe with compression := v == 1 } } tag flags (.setCompression v) .ok
    (dv 1 v ++ du 7) noDetail h.1
  rw [← refused_join tag h, ← hset]
  rfl

/-- The seal timer under a new interval: restarted while a slot is FILLING, else stopped. -/
theorem sealInterval_spm (m : Spm) (v : Nat) :
    (if (({ m with sealInterval := v } : Spm).firstIn .filling).isSome then ({ m with sealInterval := v } : Spm).restart
      else { m with sealInterval := v, sealTimer := none })
      = { m with
          sealInterval := v
          sealTimer := if (m.firstIn .filling).isSome ∧ v ≠ 0 then some (v * Config.ticksPerSecond) else none } := by
  have hfirst : ({ m with sealInterval := v } : Spm).firstIn .filling = m.firstIn .filling := rfl
  rw [hfirst]
  unfold Spm.restart
  cases (m.firstIn .filling).isSome <;> by_cases hv : v = 0 <;> simp [hv]

theorem runSetSealInterval_join (h : s.Takes flags) (v : Nat) :
    (s.join (s.entry tag flags (.setSealInterval v))).runSetSealInterval s.ci.nextId v =
      if 60 < v then s.takenDone tag flags (.setSealInterval v) .refusedArgument noDetail noDetail
      else
        State.takenDone
          { s with spm := { s.spm with
              sealInterval := v
              sealTimer := if (s.spm.firstIn .filling).isSome ∧ v ≠ 0 then some (v * Config.ticksPerSecond) else none } }
          tag flags (.setSealInterval v) .ok (dv 8 v) noDetail := by
  rw [← sealInterval_spm s.spm v, ← refused_join tag h]
  unfold State.runSetSealInterval
  dsimp only
  refine if_congr Iff.rfl rfl ?_
  have hfirst : (((s.join (s.entry tag flags (.setSealInterval v))).onSpm fun m => { m with sealInterval := v }).spm.firstIn
      .filling) = ({ s.spm with sealInterval := v } : Spm).firstIn .filling := rfl
  rw [hfirst]
  split
  · exact complete_join { s with spm := ({ s.spm with sealInterval := v } : Spm).restart } tag flags (.setSealInterval v) .ok
      (dv 8 v) noDetail h.1
  · exact complete_join { s with spm := { s.spm with sealInterval := v, sealTimer := none } } tag flags (.setSealInterval v) .ok
      (dv 8 v) noDetail h.1

end

/-- Settles O10: each command taken, then its checks in their order. -/
theorem settingsAreMade : Obligations.SettingsAreMade := by
  refine ⟨fun s tag flags n h => next_congr ?_, fun s tag flags v h => next_congr ?_, fun s tag flags v h => next_congr ?_⟩
  · exact (command_runs tag h rfl (by simp)).trans (congrArg State.finish (runSetPool_join tag h n.toNat))
  · exact (command_runs tag h rfl (by simp)).trans (congrArg State.finish (runSetCompression_join tag h v.toNat))
  · exact (command_runs tag h rfl (by simp)).trans (congrArg State.finish (runSetSealInterval_join tag h v.toNat))

/-! ### The sensor plan (R155, R156) -/

/-- The entries of a plan's first sequence (R150, R156). -/
theorem apply_sequence (x : Ss) (p : Plan) :
    (x.apply p).sequence = some
      { onB := false, next := 0, stamp := x.stamp
        entries := match p.scan with | [] => p.listA | c :: _ => p.listA.dropLast ++ [c] } := by
  unfold Ss.apply Ss.startSequence
  cases p.scan <;> simp

/-- Settles O11: what `apply` leaves, field by field. -/
theorem sensorPlanApplied : Obligations.SensorPlanApplied := by
  intro s tag flags p h
  have hrun := command_runs tag h (cmd := .sensorPlan p) rfl (by simp)
  split
  next hnone =>
    have hrefused : (s.join (s.entry tag flags (.sensorPlan p))).runSensorPlan s.ci.nextId p
        = s.takenDone tag flags (.sensorPlan p) .refusedArgument noDetail noDetail := by
      rw [← refused_join tag h]
      unfold State.runSensorPlan
      rw [show planOf (s.join (s.entry tag flags (.sensorPlan p))).mc.state.threaded p = none from hnone]
    exact next_congr (hrun.trans (congrArg State.finish hrefused))
  next plan hsome =>
    have happlied : (s.join (s.entry tag flags (.sensorPlan p))).runSensorPlan s.ci.nextId p
        = State.takenDone { s with ss := s.ss.apply plan } tag flags (.sensorPlan p) .ok (dv 4 s.ss.stamp ++ du 4) noDetail := by
      rw [← complete_join { s with ss := s.ss.apply plan } tag flags (.sensorPlan p) .ok _ _ h.1]
      unfold State.runSensorPlan
      rw [show planOf (s.join (s.entry tag flags (.sensorPlan p))).mc.state.threaded p = some plan from hsome]
      rfl
    exact ⟨s.ss.apply plan, next_congr (hrun.trans (congrArg State.finish happlied)), rfl, rfl, rfl,
      apply_sequence s.ss plan, rfl, rfl, rfl, rfl, rfl, rfl⟩

/-! ### The health commands (R166, R167) -/

section
variable (s : State) (f : Ci → Ci)

theorem tryRecord_onCi : (s.onCi f).tryRecord = s.tryRecord.onCi f := by
  unfold State.tryRecord
  show (if (s.cw.pending.isEmpty || s.cw.recordAsked || s.cw.tailDue.isSome || s.completionFull) = true then _ else _) = _
  split <;> rfl

theorem note_onCi (k : NoteKind) (a b : Detail) : (s.onCi f).note k a b = (s.note k a b).onCi f := by
  unfold State.note
  show (if (s.cw.pending.any fun i => i.cmd.isNone && i.code == k.code) = true then _ else _) = _
  split
  · rfl
  · exact tryRecord_onCi (s.onCw fun c => { c with pending := c.pending ++ [s.stamp none 0 k.code 1 a b] }) f

theorem enterHealth_onCi (h : Health) (cause : Nat) : (s.onCi f).enterHealth h cause = (s.enterHealth h cause).onCi f := by
  unfold State.enterHealth
  show (if h = s.hm.health then _ else _) = _
  by_cases hsame : h = s.hm.health
  · rw [if_pos hsame, if_pos hsame]
  · rw [if_neg hsame, if_neg hsame]
    dsimp only
    have hnote : ∀ a b, (s.onCi f |>.onHm fun m => { m with health := h }).note .cleaningRequest a b
        = ((s.onHm fun m => { m with health := h }).note .cleaningRequest a b).onCi f :=
      note_onCi (s.onHm fun m => { m with health := h }) f .cleaningRequest
    cases h <;> simp only [reduceCtorEq, if_false, if_true, hnote] <;> rfl

theorem tryRecord_ci : s.tryRecord.ci = s.ci := by
  unfold State.tryRecord
  split <;> rfl

theorem note_ci (k : NoteKind) (a b : Detail) : (s.note k a b).ci = s.ci := by
  unfold State.note
  split
  · rfl
  · exact tryRecord_ci _

theorem enterHealth_ci (h : Health) (cause : Nat) : (s.enterHealth h cause).ci = s.ci := by
  unfold State.enterHealth
  cases h <;> dsimp only <;> split <;> simp [State.onHm, State.onPins, State.onRg, note_ci]

end

theorem enterHealth_health (s : State) (h : Health) (cause : Nat) : (s.enterHealth h cause).hm.health = h := by
  have heffects := (healthEntryEffects.1 s h cause)
  by_cases hsame : h = s.hm.health
  · rw [heffects.1 hsame, hsame]
  · rw [(heffects.2 hsame).1]

theorem runSetHealth_join {s : State} {flags : BitVec 8} (tag : BitVec 16) (h : s.Takes flags) (v : Nat) :
    (s.join (s.entry tag flags (.setHealth v))).runSetHealth s.ci.nextId v =
      if 1000 < v then s.takenDone tag flags (.setHealth v) .refusedArgument noDetail noDetail
      else
        State.takenDone (State.enterHealth { s with hm := { s.hm with ci := v } } (healthOf v) 3) tag flags (.setHealth v)
          .ok (dv 2 v ++ dv 1 (healthOf v).code ++ du 5) noDetail := by
  have hset := enterHealth_onCi { s with hm := { s.hm with ci := v } }
    (fun c => { c with
      outstanding := c.outstanding ++ [s.entry tag flags (.setHealth v)], nextId := c.nextId + 1 }) (healthOf v) 3
  have hci := enterHealth_ci { s with hm := { s.hm with ci := v } } (healthOf v) 3
  have hhealth := enterHealth_health { s with hm := { s.hm with ci := v } } (healthOf v) 3
  have hdone : ∀ e : State, e.ci = s.ci → e.hm.health = healthOf v →
      (e.onCi fun c => { c with
        outstanding := c.outstanding ++ [s.entry tag flags (.setHealth v)], nextId := c.nextId + 1 }).complete s.ci.nextId .ok
          (dv 2 v ++ dv 1 e.hm.health.code ++ du 5) noDetail
        = e.takenDone tag flags (.setHealth v) .ok (dv 2 v ++ dv 1 (healthOf v).code ++ du 5) noDetail := by
    intro e hci hhealth
    rw [← complete_join e tag flags (.setHealth v) .ok _ _ (by rw [hci]; exact h.1), hhealth]
    unfold State.join State.entry State.newTaken
    rw [hci]
    rfl
  rw [← refused_join tag h, ← hdone _ hci hhealth]
  unfold State.runSetHealth
  refine if_congr Iff.rfl rfl ?_
  exact congrArg (fun e : State => e.complete s.ci.nextId .ok (dv 2 v ++ dv 1 e.hm.health.code ++ du 5) noDetail) hset

/-- QUERY_HEALTH's detail B as its table reads. -/
theorem lastDetail_eq (n : Nat) (last : Option Scored) :
    lastDetail n last = match last with
      | none =>
        dv 4 4294967295 ++ dv 1 0 ++ dv 1 ((Config.freeByte n).toNat % 14)
          ++ dv 1 (byteOfBits [false, false, bitOf (Config.freeByte (n + 1)) 0]) ++ dv 1 0
      | some r =>
        dv 4 r.stripe ++ dv 1 (if r.verify then 1 else 2) ++ dv 1 r.increment
          ++ dv 1 (byteOfBits [decide (0 < r.decrement), r.terms, r.amplitude.isNone])
          ++ dv 1 (if r.terms then r.maxCorrected else 0) := by
  cases last <;> rfl

/-- Settles O13: the set value takes effect on the state that the command joins; the query reads the block. -/
theorem healthSetAndQueried : Obligations.HealthSetAndQueried := by
  refine ⟨fun s tag flags v h => next_congr ?_, fun s tag flags h => ?_⟩
  · exact (command_runs tag h rfl (by simp)).trans (congrArg State.finish (runSetHealth_join tag h v.toNat))
  · refine ⟨s.free + 2, (Config.freeByte s.free).toNat % 14, bitOf (Config.freeByte (s.free + 1)) 0, by omega, ?_⟩
    have hqueried := complete_join { s with free := s.free + 2 } tag flags .queryHealth .ok
      (dv 2 s.hm.ci ++ dv 1 s.hm.health.code ++ dv 1 s.hm.threshold ++ dv 4 s.hm.wear) (lastDetail s.free s.hm.last) h.1
    have hrun := (command_runs tag h (cmd := .queryHealth) rfl (by simp)).trans (congrArg State.finish hqueried)
    rw [lastDetail_eq] at hrun
    exact next_congr hrun

/-! ### LOOPBACK (R170) and malformed flags (R182) -/

/-- Settles O15: the refusals, the start at byte 0, and the report of an image sent whole. -/
theorem loopbackRuns : Obligations.LoopbackRuns := by
  refine ⟨fun s tag flags slot h => next_congr ?_, fun s header counts l hl hsent => ?_⟩
  · refine (command_runs tag h rfl (by simp)).trans (congrArg State.finish ?_)
    have hstart := congrArg
      (fun e => e.onTte fun t =>
        { t with loopback := some { cmd := s.ci.nextId, slot := slot.toNat, fetched := 0, sent := 0 }, fifo := [] })
      (running_configuration tag s flags h.1 (cmd := .loopback slot.toNat) rfl)
    rw [← refused_join tag h, ← refused_join tag h]
    show State.runLoopback _ _ _ = _
    unfold State.runLoopback
    refine if_congr Iff.rfl rfl (if_congr Iff.rfl rfl ?_)
    exact hstart
  · show execLoopbackReport header counts s = _
    unfold execLoopbackReport
    rw [hl]
    dsimp only
    rw [if_neg (by omega)]
    rfl

/-- A malformed configuration command is refused in the step that takes it. -/
theorem malformed_refused {s : State} {flags : BitVec 8} (tag : BitVec 16) {cmd : HostCmd} (hn : s.ci.Numbered)
    (hroom : s.ci.outstanding.length < Config.maxOutstanding) (hbad : 2 ≤ flags.toNat) (hbit : bitOf flags 0 = false)
    (hg : cmd.group = .configuration) :
    s.command tag flags cmd = (s.takenDone tag flags cmd .refusedArgument noDetail noDetail).finish := by
  have hmalformed : flagsMalformed flags = true := decide_eq_true hbad
  have hclear : (s.join (s.entry tag flags cmd)).barrierClear (s.entry tag flags cmd) = true := by
    simp [State.barrierClear, Taken.barrier, State.newTaken, hbit]
  have hspoiled : (s.entry tag flags cmd).spoiled = true := by
    simp [Taken.spoiled, State.newTaken, hmalformed]
  have hgroup : (s.entry tag flags cmd).queue = .configuration := hg
  unfold State.command State.takeCmd
  rw [if_neg (by omega)]
  dsimp only
  rw [hgroup]
  dsimp only
  rw [if_pos hclear]
  unfold State.runConfig
  rw [if_pos hspoiled]
  exact congrArg State.finish (completeBare_join s tag flags cmd .refusedArgument hn)

/-- Settles O16: the flags spoil the command before its kind is looked at. -/
theorem malformedFlagsRefused : Obligations.MalformedFlagsRefused := by
  intro s tag flags n v p hn hroom hbad hbit refused
  refine ⟨?_, ?_, ?_, ?_, ?_, ?_, ?_, ?_, ?_⟩ <;> exact next_congr (malformed_refused tag hn hroom hbad hbit rfl)

end Sys2Proof.Machine
end

section
/-! Power-on and the cartridge (R116, R180), the motion commands as they are taken (R115, R117 to R120, R126 to R131) and the
torque commands (R123): O34, O35, O36 and O47. -/

namespace Sys2Proof.Machine

/-! ### Power-on and the cartridge (R116, R180) -/

/-- Settles O34: each row's next state read off. -/
theorem powerOnAndCartridge : Obligations.PowerOnAndCartridge := by
  refine ⟨fun s present tape wp mem => ⟨_, rfl, rfl, rfl, rfl, rfl, rfl, rfl, rfl, rfl⟩, fun s wp mem hempty => ?_,
    fun s hpresent => ?_⟩
  · show execCartridgeInserted wp mem s = _
    unfold execCartridgeInserted
    rw [if_pos hempty]
    rfl
  · intro e
    show execCartridgeRemoval s = _
    unfold execCartridgeRemoval
    rw [if_pos hpresent]
    cases s.mc.job <;> rfl

/-! ### Torque commands (R123) -/

/-- The change of a torque command, below and above the target tension. -/
theorem nextTorque_eq (torque measured : Nat) :
    nextTorque torque measured =
      if measured ≤ 2048 then min 4095 (torque + min 64 ((2048 - measured) * 96 / 256))
      else min 4095 (torque - min 64 ((measured - 2048) * 96 / 256)) := by
  have hdiv (n : Nat) : Int.tdiv (-(n : Int)) 256 = -((n / 256 : Nat) : Int) := by
    rw [Int.neg_tdiv]
    rfl
  unfold nextTorque
  dsimp only
  split
  next hbelow =>
    rw [show (2048 - (measured : Int)) * 96 = (((2048 - measured) * 96 : Nat) : Int) by omega,
      show Int.tdiv (((2048 - measured) * 96 : Nat) : Int) 256 = (((2048 - measured) * 96 / 256 : Nat) : Int) from rfl]
    omega
  next habove =>
    rw [show (2048 - (measured : Int)) * 96 = -(((measured - 2048) * 96 : Nat) : Int) by omega, hdiv]
    omega

/-- Settles O47, the tension below or above the target. -/
theorem torqueMovesTowardsTarget : Obligations.TorqueMovesTowardsTarget := by
  intro torque measured htorque hmeasured change
  rw [nextTorque_eq]
  by_cases hbelow : measured ≤ 2048
  · have hchange : change = min 64 ((2048 - measured) * 96 / 256) := by simp only [change, if_pos hbelow]
    rw [if_pos hbelow]
    refine ⟨?_, ?_, ?_, ?_, ?_⟩ <;> omega
  · have hchange : change = min 64 ((measured - 2048) * 96 / 256) := by simp only [change, if_neg hbelow]
    rw [if_neg hbelow]
    refine ⟨?_, ?_, ?_, ?_, ?_⟩ <;> omega

/-! ### A motion command run in the step that takes it -/

section
variable {s : State} {flags : BitVec 8} (tag : BitVec 16) {cmd : HostCmd}

/-- The only motion command, sound and served, is dispatched by its kind. -/
theorem motion_runs (h : s.Takes flags) (hq : s.ci.motionQueue = []) (hs : s.motionServed = true) (hg : cmd.group = .motion)
    (hc : ∀ k, cmd ≠ .unknown k) :
    s.command tag flags cmd = State.finish
      (match (s.entry tag flags cmd).cmd with
        | .load => (s.join (s.entry tag flags cmd)).runLoad s.ci.nextId
        | .unload => (s.join (s.entry tag flags cmd)).runUnload s.ci.nextId
        | .rewind => (s.join (s.entry tag flags cmd)).runRewind s.ci.nextId
        | .locate kind target => (s.join (s.entry tag flags cmd)).runLocate s.ci.nextId kind target
        | .locateEod => (s.join (s.entry tag flags cmd)).runLocateEod s.ci.nextId
        | .space kind count => (s.join (s.entry tag flags cmd)).runSpace s.ci.nextId kind count
        | _ => (s.join (s.entry tag flags cmd)).completeBare s.ci.nextId .refusedArgument) := by
  rw [command_motion h tag hg hq hs]
  exact congrArg State.finish (runMotion_alone h tag hc)

/-- An operation that neither reads nor sets the Command Intake acts before or after a command has joined it. -/
theorem takenMotion_commutes {G : State → State} (hG : ∀ (e : State) (f : Ci → Ci), G (e.onCi f) = (G e).onCi f)
    (hci : (G s).ci = s.ci) (g : Stage) : G (s.takenMotion tag flags cmd g) = (G s).takenMotion tag flags cmd g := by
  unfold State.takenMotion State.takenOut State.newEntry
  rw [hG, hG, hci]

end

section
variable {s : State} {flags : BitVec 8} (tag : BitVec 16)

/-- With no link operation in flight LOAD's read begins; else it waits (R117, R136). -/
theorem askLoadRead_eq (s : State) :
    s.askLoadRead = s.onCml fun c =>
      { c with op := c.op.or (some { kind := .loadRead, steps := [.read 0 192], retries := 0, wait := none, got := []
                                     aborted := false }) } := by
  have hread : ∀ c : Cml, c.op = s.cml.op → s.cml.op.isSome = true →
      { c with op := c.op.or (some { kind := .loadRead, steps := [.read 0 192], retries := 0, wait := none, got := []
                                     aborted := false }) } = c := by
    intro c hc hsome
    rw [Option.or_of_isSome (by rw [hc]; exact hsome)]
  unfold State.askLoadRead
  split
  next hsome => exact (congrArg (fun c => s.onCml fun _ => c) (hread s.cml rfl hsome)).symm
  next hnone =>
    have hop : s.cml.op = none := by simpa using hnone
    have hor : ∀ op : LinkOp, s.cml.op.or (some op) = some op := fun op => by rw [hop, Option.none_or]
    exact (congrArg (fun o => s.onCml fun c => { c with op := o }) (hor _)).symm

theorem runLoad_join (h : s.Takes flags) :
    (s.join (s.entry tag flags .load)).runLoad s.ci.nextId =
      if s.mc.state = .present then
        State.takenMotion
          { s with
            mc := { s.mc with job := some (Job.new s.ci.nextId .load .memory) }
            cml := { s.cml with
              op := s.cml.op.or (some { kind := .loadRead, steps := [.read 0 192], retries := 0, wait := none, got := []
                                        aborted := false }) } }
          tag flags .load .running
      else s.takenDone tag flags .load .refusedState noDetail noDetail := by
  unfold State.runLoad
  rw [askLoadRead_eq, running_motion s tag flags .load h.1 rfl]
  by_cases hpresent : s.mc.state = .present
  · rw [if_neg (not_not_intro (show (s.join _).mc.state = .present from hpresent)), if_pos hpresent]
    rfl
  · rw [if_pos (show (s.join _).mc.state ≠ .present from hpresent), if_neg hpresent]
    exact completeBare_join s tag flags .load .refusedState h.1

/-- Outside a session a state that is not REPOSITIONING has nothing for UNLOAD to clear. -/
theorem unloadPool_of_none {e : State} (hnone : e.spm.direction = .none) (hstill : e.mc.state ≠ .repositioning) :
    e.unloadPool = e := by
  unfold State.unloadPool State.abortPool State.stopReposition
  rw [hnone, if_neg (by decide)]
  exact if_neg hstill

/-- UNLOAD taken, by the motion state it finds. -/
theorem runUnload_join (h : s.Takes flags) :
    (s.join (s.entry tag flags .unload)).runUnload s.ci.nextId = match s.mc.state with
      | .empty => s.takenDone tag flags .unload .refusedState noDetail noDetail
      | .present => s.takenDone tag flags .unload .ok (dv 1 0 ++ du 7) noDetail
      | .fault | .stranded =>
        (s.takenMotion tag flags .unload .running).unloadPool.beginRecovery (Job.new s.ci.nextId .unload .intake)
      | _ =>
        if s.spm.direction = .writeOpen then
          (s.takenMotion tag flags .unload .running).setJob (Job.new s.ci.nextId .unload .intake)
        else
          (s.takenMotion tag flags .unload .running).unloadPool.setJob
            { Job.new s.ci.nextId .unload .intake with stage := .emptying } := by
  rw [← running_motion s tag flags .unload h.1 rfl, ← complete_join s tag flags .unload .ok _ _ h.1,
    ← completeBare_join s tag flags .unload .refusedState h.1]
  rfl

/-- Settles O35: the states in which LOAD and UNLOAD begin or answer at once. -/
theorem loadAndUnloadBegin : Obligations.LoadAndUnloadBegin := by
  intro s tag flags h hq hs
  have hunload : ∀ e, (s.join (s.entry tag flags .unload)).runUnload s.ci.nextId = e →
      exec (.unload tag flags) s = Host.Outcome.next e.finish := fun e he =>
    next_congr ((motion_runs tag h hq hs rfl (by simp)).trans (congrArg State.finish he))
  have hrun := runUnload_join tag h
  refine ⟨next_congr ?_, fun hstate => hunload _ ?_, fun hstate => hunload _ ?_, fun hstate hdir => hunload _ ?_,
    fun hstate hdir => hunload _ ?_, fun hstate hdir => hunload _ ?_⟩
  · exact (motion_runs tag h hq hs rfl (by simp)).trans (congrArg State.finish (runLoad_join tag h))
  · rw [hrun, hstate]
  · rw [hrun, hstate]
  · rw [hrun, hstate]
    exact if_pos hdir
  · have hstill : (s.takenMotion tag flags .unload .running).mc.state ≠ .repositioning := by
      rw [show (s.takenMotion tag flags .unload .running).mc.state = .ready from hstate]
      decide
    rw [hrun, hstate]
    dsimp only
    rw [if_neg (by rw [hdir]; decide),
      unloadPool_of_none (e := s.takenMotion tag flags .unload .running) hdir hstill]
    rfl
  · have hstill : (s.takenMotion tag flags .unload .running).mc.state ≠ .repositioning := by
      show s.mc.state ≠ .repositioning
      rcases hstate with hstate | hstate <;> rw [hstate] <;> decide
    have hcleared := unloadPool_of_none (e := s.takenMotion tag flags .unload .running) hdir hstill
    have hbegun : (s.join (s.entry tag flags .unload)).runUnload s.ci.nextId
        = (s.takenMotion tag flags .unload .running).beginRecovery (Job.new s.ci.nextId .unload .intake) := by
      rw [hrun]
      rcases hstate with hstate | hstate <;> rw [hstate] <;> dsimp only <;> rw [hcleared]
    rw [hbegun]
    rfl

/-! ### Moves (R115, R120, R126, R129, R131) -/

/-- A shuttle does not touch the motion command. -/
theorem shuttle_job (m : Mc) (j : Option Job) (p : TapePos) :
    ({ m with job := j } : Mc).shuttle p = { m.shuttle p with job := j } := by
  unfold Mc.shuttle
  dsimp only
  split <;> rfl

theorem goPlace_eq (s : State) (j : Job) (f : Finish) (p : TapePos) :
    s.goPlace j f p
      = { s with mc := { s.mc.shuttle p with job := some { j with stage := .toPlace, finish := some f } } } := by
  exact congrArg (fun m => { s with mc := m }) (shuttle_job s.mc (some { j with stage := .toPlace, finish := some f }) p)

theorem goSearch_eq (s : State) (j : Job) (x : Search) :
    s.goSearch j x
      = { s with mc := { s.mc.shuttle x.start with job := some { j with stage := .toStart, search := some x } } } := by
  exact congrArg (fun m => { s with mc := m }) (shuttle_job s.mc (some { j with stage := .toStart, search := some x }) x.start)

end

section
variable (s : State) (f : Ci → Ci)

theorem goRecord_onCi (j : Job) (r : Nat) (g : Option Finish) :
    (s.onCi f).goRecord j r g = (s.goRecord j r g).onCi f := by
  unfold State.goRecord
  rw [show (s.onCi f).validDirectory = s.validDirectory from rfl]
  cases s.validDirectory with
  | none => rfl
  | some d => by_cases hend : d.eodRecord ≤ r <;> simp only [hend, if_true, if_false] <;> rfl

theorem goStripe_onCi (j : Job) (t : Nat) : (s.onCi f).goStripe j t = (s.goStripe j t).onCi f := by
  unfold State.goStripe
  rw [show (s.onCi f).validDirectory = s.validDirectory from rfl]
  cases s.validDirectory with
  | none => rfl
  | some d => by_cases hend : d.eodStripe ≤ t <;> simp only [hend, if_true, if_false] <;> rfl

theorem goEnd_onCi (j : Job) : (s.onCi f).goEnd j = (s.goEnd j).onCi f := by
  unfold State.goEnd
  rw [show (s.onCi f).cml = s.cml from rfl]
  cases s.cml.condition <;> cases s.cml.directory <;> rfl

theorem decideRecords_onCi (j : Job) (plan : SpacePlan) (aim : Nat) (clamped : Bool) (marks : List Nat) :
    (s.onCi f).decideRecords j plan aim clamped marks = (s.decideRecords j plan aim clamped marks).onCi f := by
  unfold State.decideRecords
  split
  · cases marks.head? <;> exact goRecord_onCi ..
  · cases marks.getLast? <;> exact goRecord_onCi ..

theorem decideMarks_onCi (j : Job) (plan : SpacePlan) (marks : List Nat) (scanEnd : Option DsPos) :
    (s.onCi f).decideMarks j plan marks scanEnd = (s.decideMarks j plan marks scanEnd).onCi f := by
  unfold State.decideMarks
  rw [show (s.onCi f).validDirectory = s.validDirectory from rfl]
  dsimp only
  split
  · cases marks[plan.count.natAbs - 1]? with
    | some r => exact goRecord_onCi ..
    | none => cases s.validDirectory <;> cases scanEnd <;> rfl
  · cases marks.reverse[plan.count.natAbs - 1]? <;> exact goRecord_onCi ..

theorem goSpace_onCi (j : Job) (plan : SpacePlan) : (s.onCi f).goSpace j plan = (s.goSpace j plan).onCi f := by
  unfold State.goSpace
  rw [show (s.onCi f).validDirectory = s.validDirectory from rfl, show (s.onCi f).fullIndex = s.fullIndex from rfl,
    show (s.onCi f).spaceAim plan = s.spaceAim plan from rfl]
  dsimp only
  split
  · cases s.fullIndex with
    | some marks => exact decideRecords_onCi ..
    | none => rfl
  · cases s.fullIndex with
    | some marks => exact decideMarks_onCi ..
    | none =>
      dsimp only
      split
      · cases s.validDirectory with
        | none => rfl
        | some d =>
          dsimp only
          split
          · exact decideMarks_onCi ..
          · rfl
      · split <;> rfl

end

section
variable {s : State} {flags : BitVec 8} (tag : BitVec 16)

/-- Outside a read session a move has nothing to clear. -/
theorem clearForMove_of_none {e : State} (hnone : e.spm.direction = .none) : e.clearForMove = e := by
  unfold State.clearForMove
  rw [hnone]
  exact if_neg nofun

/-- A move that begins outside a session in the step that takes it, by what it does to the state before. -/
theorem move_begins (h : s.Takes flags) (hnone : s.spm.direction = .none) {cmd : HostCmd} (hg : cmd.group = .motion)
    {G : State → State} (hG : ∀ (e : State) (f : Ci → Ci), G (e.onCi f) = (G e).onCi f) (hci : (G s).ci = s.ci) :
    G ((s.join (s.entry tag flags cmd)).setStage s.ci.nextId .running).clearForMove
      = (G s).takenMotion tag flags cmd .running := by
  rw [running_motion s tag flags cmd h.1 hg,
    clearForMove_of_none (show (s.takenMotion tag flags cmd .running).spm.direction = .none from hnone),
    takenMotion_commutes tag hG hci]

end

section
variable (s : State)

theorem goRecord_ci (j : Job) (r : Nat) (g : Option Finish) : (s.goRecord j r g).ci = s.ci := by
  unfold State.goRecord
  split
  · split <;> rfl
  · rfl

theorem goStripe_ci (j : Job) (t : Nat) : (s.goStripe j t).ci = s.ci := by
  unfold State.goStripe
  dsimp only
  split
  · split <;> rfl
  · rfl

theorem goEnd_ci (j : Job) : (s.goEnd j).ci = s.ci := by
  unfold State.goEnd
  split <;> rfl

theorem decideRecords_ci (j : Job) (plan : SpacePlan) (aim : Nat) (clamped : Bool) (marks : List Nat) :
    (s.decideRecords j plan aim clamped marks).ci = s.ci := by
  unfold State.decideRecords
  dsimp only
  split <;> split <;> exact goRecord_ci ..

theorem decideMarks_ci (j : Job) (plan : SpacePlan) (marks : List Nat) (scanEnd : Option DsPos) :
    (s.decideMarks j plan marks scanEnd).ci = s.ci := by
  unfold State.decideMarks
  dsimp only
  split
  · split
    · exact goRecord_ci ..
    · split <;> rfl
  · split <;> exact goRecord_ci ..

theorem goSpace_ci (j : Job) (plan : SpacePlan) : (s.goSpace j plan).ci = s.ci := by
  unfold State.goSpace
  dsimp only
  split
  · split
    · exact decideRecords_ci ..
    · rfl
  · split
    · exact decideMarks_ci ..
    · split
      · split
        · split
          · exact decideMarks_ci ..
          · rfl
        · rfl
      · split <;> rfl

end

section
variable {s : State} {flags : BitVec 8} (tag : BitVec 16)

theorem runLocate_join (h : s.Takes flags) (hmay : s.moveRefused = false) (hnone : s.spm.direction = .none)
    (kind target : Nat) :
    (s.join (s.entry tag flags (.locate kind target))).runLocate s.ci.nextId kind target =
      if 1 < kind ∨ (kind = 0 ∧ 639999 < target) then s.takenDone tag flags (.locate kind target) .refusedArgument noDetail noDetail
      else if kind = 0 then
        (s.goStripe (Job.new s.ci.nextId .locate .toStart) target).takenMotion tag flags (.locate kind target) .running
      else
        (s.goRecord { Job.new s.ci.nextId .locate .toStart with byRecord := true } target none).takenMotion tag flags
          (.locate kind target) .running := by
  rw [← completeBare_join s tag flags _ .refusedArgument h.1,
    ← move_begins tag h hnone (cmd := .locate kind target) rfl (G := fun e => e.goStripe (Job.new s.ci.nextId .locate .toStart) target)
      (fun e f => goStripe_onCi e f _ _) (goStripe_ci s _ _),
    ← move_begins tag h hnone (cmd := .locate kind target) rfl
      (G := fun e => e.goRecord { Job.new s.ci.nextId .locate .toStart with byRecord := true } target none)
      (fun e f => goRecord_onCi e f _ _ _) (goRecord_ci s _ _ _)]
  unfold State.runLocate
  rw [if_neg (by rw [show (s.join (s.entry tag flags (.locate kind target))).moveRefused = false from hmay]; decide)]
  by_cases hbad : 1 < kind ∨ (kind = 0 ∧ 639999 < target)
  · exact (if_pos hbad).trans (if_pos hbad).symm
  · refine (if_neg hbad).trans (Eq.trans ?_ (if_neg hbad).symm)
    dsimp only
    by_cases hkind : kind = 0
    · rw [if_pos hkind, if_pos hkind, hkind]
      rfl
    · rw [if_neg hkind, if_neg hkind, show kind = 1 by omega]
      rfl

theorem runSpace_join (h : s.Takes flags) (hmay : s.moveRefused = false) (hnone : s.spm.direction = .none)
    (kind : Nat) (count : Int) :
    (s.join (s.entry tag flags (.space kind count))).runSpace s.ci.nextId kind count =
      if 1 < kind ∨ 65535 < count.natAbs then s.takenDone tag flags (.space kind count) .refusedArgument noDetail noDetail
      else if count = 0 then s.takenDone tag flags (.space kind count) .ok (dv 4 0 ++ du 4) (dv 4 0 ++ du 4)
      else
        (s.goSpace (Job.new s.ci.nextId .space .toStart)
          { filemarks := kind == 1, count := count, origin := (s.mc.dsPos.map (·.record)).getD 0 }).takenMotion tag flags
          (.space kind count) .running := by
  rw [← completeBare_join s tag flags _ .refusedArgument h.1, ← complete_join s tag flags _ .ok _ _ h.1,
    ← move_begins tag h hnone (cmd := .space kind count) rfl
      (G := fun e => e.goSpace (Job.new s.ci.nextId .space .toStart)
        { filemarks := kind == 1, count := count, origin := (s.mc.dsPos.map (·.record)).getD 0 })
      (fun e f => goSpace_onCi e f _ _) (goSpace_ci s _ _)]
  unfold State.runSpace
  dsimp only
  rw [if_neg (by rw [show (s.join (s.entry tag flags (.space kind count))).moveRefused = false from hmay]; decide)]
  refine if_congr Iff.rfl rfl ?_
  by_cases hzero : count = 0
  · rw [if_pos hzero, if_pos hzero, hzero]
    rfl
  · rw [if_neg hzero, if_neg hzero]
    rfl

/-- Settles O36: each move refused, or begun outside a session by the functions of O37. -/
theorem movesBegin : Obligations.MovesBegin := by
  intro s tag flags kind target count h hq hs job plan
  have hrun {cmd : HostCmd} (hg : cmd.group = .motion) (hc : ∀ k, cmd ≠ .unknown k) := motion_runs tag h hq hs hg hc
  refine ⟨fun hrefused => ?_, fun hmay hnone => ?_⟩
  · have hdone (cmd : HostCmd) := congrArg State.finish (completeBare_join s tag flags cmd .refusedState h.1)
    exact ⟨next_congr ((hrun rfl (by simp)).trans ((congrArg State.finish (if_pos hrefused)).trans (hdone .rewind))),
      next_congr ((hrun rfl (by simp)).trans ((congrArg State.finish (if_pos hrefused)).trans (hdone (.locate _ _)))),
      next_congr ((hrun rfl (by simp)).trans ((congrArg State.finish (if_pos hrefused)).trans (hdone .locateEod))),
      next_congr ((hrun rfl (by simp)).trans ((congrArg State.finish (if_pos hrefused)).trans (hdone (.space _ _))))⟩
  · have hfree : ¬s.moveRefused = true := by rw [hmay]; decide
    refine ⟨next_congr ((hrun rfl (by simp)).trans (congrArg State.finish ?_)),
      next_congr ((hrun rfl (by simp)).trans (congrArg State.finish (runLocate_join tag h hmay hnone kind.toNat target.toNat))),
      next_congr ((hrun rfl (by simp)).trans (congrArg State.finish ?_)),
      next_congr ((hrun rfl (by simp)).trans (congrArg State.finish (runSpace_join tag h hmay hnone kind.toNat count.toInt)))⟩
    · have hplace := goPlace_eq s (Job.new s.ci.nextId .rewind .toPlace) Finish.rewound { pass := 0, mark := 0 }
      refine (if_neg hfree).trans ((move_begins tag h hnone rfl
        (G := fun e => e.goPlace (Job.new s.ci.nextId .rewind .toPlace) Finish.rewound { pass := 0, mark := 0 })
        (fun _ _ => rfl) rfl).trans ?_)
      exact congrArg (fun e => State.takenMotion e tag flags .rewind .running) hplace
    · exact (if_neg hfree).trans (move_begins tag h hnone rfl (G := fun e => e.goEnd (Job.new s.ci.nextId .locateEod .toStart))
        (fun e f => goEnd_onCi e f _) (goEnd_ci s _))

end

end Sys2Proof.Machine
end

section
/-! Where a locate or a space goes (R126 to R132): O37. -/

namespace Sys2Proof.Machine

/-! ### Searches begun -/

section
variable (s : State) (j : Job)

theorem goPlace_mc (f : Finish) (p : TapePos) :
    (s.goPlace j f p).mc = { s.mc.shuttle p with job := some { j with stage := .toPlace, finish := some f } } :=
  congrArg State.mc (goPlace_eq s j f p)

theorem goSearch_mc (x : Search) :
    (s.goSearch j x).mc = { s.mc.shuttle x.start with job := some { j with stage := .toStart, search := some x } } :=
  congrArg State.mc (goSearch_eq s j x)

/-- A search for filemarks of a span, as it begins. -/
theorem marksSearch_goes {t : State} {low : Nat} {high : Option Nat} {wanted : Nat} {start : TapePos}
    (h : t = s.goSearch j (s.marksSearch low high wanted start)) :
    ∃ x, t.mc = { s.mc.shuttle start with job := some { j with stage := .toStart, search := some x } }
      ∧ x.goal = .marks low high wanted ∧ x.scan = s.validDirectory.isNone ∧ x.start = start ∧ x.found = []
      ∧ x.attempt = 1 ∧ x.window = none :=
  ⟨s.marksSearch low high wanted start, by rw [h, goSearch_mc]; rfl, rfl, rfl, rfl, rfl, rfl, rfl⟩

end

section
variable {s : State}

/-- A scan starts at the carried position where that is not behind, else at the beginning of tape (R128). -/
theorem scanStart_of_some {p : DsPos} (hp : s.mc.dsPos = some p) (ahead : DsPos → Bool) :
    s.scanStart ahead = if ahead p = true then p.carried else { pass := 0, mark := 0 } := by
  unfold State.scanStart
  rw [hp]

theorem recordSearch_start_valid {d : Directory} (hv : s.validDirectory = some d) (r : Nat) :
    (s.recordSearch r).start = d.recordStart r := by
  unfold State.recordSearch
  rw [hv]
  rfl

theorem recordSearch_start_scan (hv : s.validDirectory = none) (r : Nat) :
    (s.recordSearch r).start = s.scanStart fun p => decide (p.record ≤ r) := by
  unfold State.recordSearch
  rw [hv]
  rfl

/-! ### LOCATE and LOCATE_EOD (R126 to R130) -/

theorem goStripe_goes (j : Job) (t : Nat) :
    (∀ d, s.validDirectory = some d → d.eodStripe ≤ t →
      (s.goStripe j t).mc = { s.mc.shuttle d.endPos with job := some { j with
        stage := .toPlace, finish := some (endFinish d .locate (if t = d.eodStripe then .ok else .endOfData)) } })
    ∧ (∀ d, s.validDirectory = some d → t < d.eodStripe →
      ∃ x, (s.goStripe j t).mc = { s.mc.shuttle (d.stripeStart t) with job := some { j with stage := .toStart, search := some x } }
        ∧ x.goal = .stripe t ∧ x.scan = false ∧ x.start = d.stripeStart t ∧ x.attempt = 1 ∧ x.window = none)
    ∧ (s.validDirectory = none →
      ∃ x, (s.goStripe j t).mc = { s.mc.shuttle x.start with job := some { j with stage := .toStart, search := some x } }
        ∧ x.goal = .stripe t ∧ x.scan = true
        ∧ (∀ p, s.mc.dsPos = some p → p.stripe ≤ t → x.start = p.carried)
        ∧ (∀ p, s.mc.dsPos = some p → t < p.stripe → x.start = { pass := 0, mark := 0 })) := by
  unfold State.goStripe
  refine ⟨fun d hv hend => ?_, fun d hv hend => ?_, fun hv => ?_⟩
  · rw [hv]
    dsimp only
    rw [if_pos hend, goPlace_mc]
  · rw [hv]
    dsimp only
    rw [if_neg (by omega), goSearch_mc]
    exact ⟨_, rfl, rfl, rfl, rfl, rfl, rfl⟩
  · rw [hv]
    dsimp only
    rw [goSearch_mc]
    exact ⟨_, rfl, rfl, rfl,
      fun p hp hle => (scanStart_of_some hp _).trans (if_pos (decide_eq_true hle)),
      fun p hp hlt => (scanStart_of_some hp _).trans (if_neg (by simpa using hlt))⟩

theorem goEnd_goes (j : Job) :
    (s.cml.condition = .absent →
      ∃ x, (s.goEnd j).mc = { s.mc.shuttle { pass := 0, mark := 0 } with
          job := some { j with stage := .toStart, search := some x } }
        ∧ x.goal = .endOfData ∧ x.scan = true ∧ x.highest = 0)
    ∧ (∀ d, s.cml.condition = .valid → s.cml.directory = some d →
      (s.goEnd j).mc = { s.mc.shuttle d.endPos with
        job := some { j with stage := .toPlace, finish := some (endFinish d .locateEod .ok) } })
    ∧ ∀ d, s.cml.condition = .stale → s.cml.directory = some d →
      ∃ x, (s.goEnd j).mc = { s.mc.shuttle (d.stripeStart d.eodStripe) with
          job := some { j with stage := .toStart, search := some x } }
        ∧ x.goal = .stale ∧ x.expected = d.eodStripe ∧ x.floor = some d.generation ∧ x.rebuilt = false ∧ x.highest = 0 := by
  unfold State.goEnd
  refine ⟨fun hc => ?_, fun d hc hd => ?_, fun d hc hd => ?_⟩
  · rw [hc]
    dsimp only
    rw [goSearch_mc]
    exact ⟨_, rfl, rfl, rfl, rfl⟩
  · rw [hc, hd]
    exact goPlace_mc ..
  · rw [hc, hd]
    dsimp only
    rw [goSearch_mc]
    exact ⟨_, rfl, rfl, rfl, rfl, rfl, rfl⟩

theorem goRecord_goes (j : Job) (r : Nat) (f : Option Finish) :
    (∀ d, s.validDirectory = some d → d.eodRecord ≤ r →
      (s.goRecord j r f).mc = { s.mc.shuttle d.endPos with job := some { j with
        stage := .toPlace
        finish := some (match f with
          | some k => { k with pos := some d.endDs }
          | none => endFinish d j.kind (if r = d.eodRecord then .ok else .endOfData)) } })
    ∧ (∀ d, s.validDirectory = some d → r < d.eodRecord →
      ∃ x, (s.goRecord j r f).mc = { s.mc.shuttle (d.recordStart r) with
          job := some { j with stage := .toStart, finish := f, search := some x } }
        ∧ x.goal = .record r ∧ x.scan = false ∧ x.start = d.recordStart r ∧ x.attempt = 1 ∧ x.window = none)
    ∧ (s.validDirectory = none →
      ∃ x, (s.goRecord j r f).mc = { s.mc.shuttle x.start with
          job := some { j with stage := .toStart, finish := f, search := some x } }
        ∧ x.goal = .record r ∧ x.scan = true ∧ x.attempt = 1 ∧ x.window = none
        ∧ (∀ p, s.mc.dsPos = some p → p.record ≤ r → x.start = p.carried)
        ∧ (∀ p, s.mc.dsPos = some p → r < p.record → x.start = { pass := 0, mark := 0 })) := by
  refine ⟨fun d hv hend => ?_, fun d hv hend => ?_, fun hv => ?_⟩
  · unfold State.goRecord
    rw [hv]
    dsimp only
    rw [if_pos hend, goPlace_mc] <;> cases f <;> rfl
  · unfold State.goRecord State.recordSearch
    rw [hv]
    dsimp only
    rw [if_neg (by omega), goSearch_mc]
    exact ⟨_, rfl, rfl, rfl, rfl, rfl, rfl⟩
  · unfold State.goRecord State.recordSearch
    rw [hv]
    dsimp only
    rw [goSearch_mc]
    exact ⟨_, rfl, rfl, rfl, rfl, rfl,
      fun p hp hle => (scanStart_of_some hp _).trans (if_pos (decide_eq_true hle)),
      fun p hp hlt => (scanStart_of_some hp _).trans (if_neg (by simpa using hlt))⟩

/-! ### SPACE (R131, R132) -/

section
variable {d : Directory} {plan : SpacePlan}

theorem fullIndex_complete (hv : s.validDirectory = some d) (hc : d.complete = true) :
    s.fullIndex = some (d.index.map (·.1)) := by
  unfold State.fullIndex
  rw [hv]
  exact if_pos hc

theorem fullIndex_incomplete (hv : s.validDirectory = some d) (hc : d.complete = false) : s.fullIndex = none := by
  unfold State.fullIndex
  rw [hv]
  exact if_neg (by rw [hc]; decide)

theorem fullIndex_absent (hv : s.validDirectory = none) : s.fullIndex = none := by
  unfold State.fullIndex
  rw [hv]

theorem spaceAim_forward (hv : s.validDirectory = some d) (hpos : 0 < plan.count) :
    s.spaceAim plan
      = (min (plan.origin + plan.count.natAbs) d.eodRecord, decide (d.eodRecord < plan.origin + plan.count.natAbs)) := by
  have haim : ((plan.origin : Int) + plan.count).toNat = plan.origin + plan.count.natAbs := by omega
  unfold State.spaceAim
  rw [hv, haim]
  by_cases hover : d.eodRecord < plan.origin + plan.count.natAbs
  · simp [hpos, hover, Nat.min_eq_right (Nat.le_of_lt hover)]
  · simp [hover, Nat.min_eq_left (Nat.le_of_not_lt hover)]

theorem spaceAim_forward_absent (hv : s.validDirectory = none) (hpos : 0 < plan.count) :
    s.spaceAim plan = (plan.origin + plan.count.natAbs, false) := by
  have haim : ((plan.origin : Int) + plan.count).toNat = plan.origin + plan.count.natAbs := by omega
  unfold State.spaceAim
  rw [hv, haim]

theorem spaceAim_back (hneg : plan.count < 0) : s.spaceAim plan = (plan.origin - plan.count.natAbs, false) := by
  have haim : ((plan.origin : Int) + plan.count).toNat = plan.origin - plan.count.natAbs := by omega
  unfold State.spaceAim
  rw [haim]
  split
  · exact if_neg (by omega)
  · rfl

theorem goSpace_records_indexed (j : Job) {marks : List Nat} (hf : plan.filemarks = false) (hi : s.fullIndex = some marks) :
    s.goSpace j plan =
      s.decideRecords { j with space := some plan } plan (s.spaceAim plan).1 (s.spaceAim plan).2
        (inSpan marks (if 0 < plan.count then plan.origin else (s.spaceAim plan).1)
          (if 0 < plan.count then (s.spaceAim plan).1 else plan.origin)) := by
  unfold State.goSpace
  rw [hi, hf]
  rfl

theorem goSpace_records_searched (j : Job) (hf : plan.filemarks = false) (hi : s.fullIndex = none) :
    s.goSpace j plan =
      s.goSearch { j with space := some plan }
        (s.marksSearch (if 0 < plan.count then plan.origin else (s.spaceAim plan).1)
          (some (if 0 < plan.count then (s.spaceAim plan).1 else plan.origin)) (if 0 < plan.count then 1 else 0)
          (s.recordSearch (if 0 < plan.count then plan.origin else (s.spaceAim plan).1)).start) := by
  unfold State.goSpace
  rw [hi, hf]
  rfl

theorem goSpace_marks_indexed (j : Job) {marks : List Nat} (hf : plan.filemarks = true) (hi : s.fullIndex = some marks) :
    s.goSpace j plan =
      s.decideMarks { j with space := some plan } plan
        (marks.filter fun f => if 0 < plan.count then plan.origin ≤ f else f < plan.origin) none := by
  unfold State.goSpace
  rw [hi, hf]
  rfl

/-- A space forward by records with a complete index: past the first filemark of the span, else to its end. -/
theorem goSpace_records_forward (j : Job) (hf : plan.filemarks = false) (hpos : 0 < plan.count)
    (hv : s.validDirectory = some d) (hc : d.complete = true) :
    s.goSpace j plan =
      match (inSpan (d.index.map (·.1)) plan.origin (min (plan.origin + plan.count.natAbs) d.eodRecord)).head? with
      | some f =>
        s.goRecord { j with space := some plan } (f + 1) (some (spaceFinish plan .filemark ((f : Int) + 1 - plan.origin)))
      | none =>
        if d.eodRecord < plan.origin + plan.count.natAbs then
          s.goRecord { j with space := some plan } d.eodRecord
            (some (spaceFinish plan .endOfData ((d.eodRecord : Int) - plan.origin)))
        else
          s.goRecord { j with space := some plan } (plan.origin + plan.count.natAbs)
            (some (spaceFinish plan .ok plan.count.natAbs)) := by
  rw [goSpace_records_indexed j hf (fullIndex_complete hv hc), spaceAim_forward hv hpos, if_pos hpos, if_pos hpos]
  unfold State.decideRecords
  dsimp only
  rw [if_pos hpos]
  cases (inSpan (d.index.map (·.1)) plan.origin (min (plan.origin + plan.count.natAbs) d.eodRecord)).head? with
  | some f => rfl
  | none =>
    by_cases hover : d.eodRecord < plan.origin + plan.count.natAbs
    · simp [hover, Nat.min_eq_right (Nat.le_of_lt hover)]
    · simp [hover, Nat.min_eq_left (Nat.le_of_not_lt hover)]

/-- A space back by records with a complete index: before the last filemark of the span, else to its end. -/
theorem goSpace_records_back (j : Job) (hf : plan.filemarks = false) (hneg : plan.count < 0)
    (hv : s.validDirectory = some d) (hc : d.complete = true) :
    s.goSpace j plan =
      match (inSpan (d.index.map (·.1)) (plan.origin - plan.count.natAbs) plan.origin).getLast? with
      | some f => s.goRecord { j with space := some plan } f (some (spaceFinish plan .filemark ((f : Int) - plan.origin)))
      | none =>
        s.goRecord { j with space := some plan } (plan.origin - plan.count.natAbs)
          (some (spaceFinish plan .ok (((plan.origin - plan.count.natAbs : Nat) : Int) - plan.origin))) := by
  have hback : ¬0 < plan.count := by omega
  rw [goSpace_records_indexed j hf (fullIndex_complete hv hc), spaceAim_back hneg, if_neg hback, if_neg hback]
  unfold State.decideRecords
  dsimp only
  rw [if_neg hback] <;> cases (inSpan (d.index.map (·.1)) (plan.origin - plan.count.natAbs) plan.origin).getLast? <;> rfl

/-- A space forward by filemarks with a complete index: past the n-th from here, else to the end of data. -/
theorem goSpace_marks_forward (j : Job) (hf : plan.filemarks = true) (hpos : 0 < plan.count)
    (hv : s.validDirectory = some d) (hc : d.complete = true) :
    s.goSpace j plan =
      match ((d.index.map (·.1)).filter fun f => plan.origin ≤ f)[plan.count.natAbs - 1]? with
      | some f => s.goRecord { j with space := some plan } (f + 1) (some (spaceFinish plan .ok plan.count.natAbs))
      | none =>
        s.goPlace { j with space := some plan }
          { spaceFinish plan .endOfData ((d.index.map (·.1)).filter fun f => plan.origin ≤ f).length with
            pos := some d.endDs } d.endPos := by
  rw [goSpace_marks_indexed j hf (fullIndex_complete hv hc)]
  simp only [hpos, if_true]
  unfold State.decideMarks
  dsimp only
  rw [if_pos hpos]
  cases ((d.index.map (·.1)).filter fun f => plan.origin ≤ f)[plan.count.natAbs - 1]? with
  | some f => rfl
  | none =>
    dsimp only
    rw [hv]

/-- A space back by filemarks with a complete index: before the n-th back from here, else to record 0. -/
theorem goSpace_marks_back (j : Job) (hf : plan.filemarks = true) (hneg : plan.count < 0)
    (hv : s.validDirectory = some d) (hc : d.complete = true) :
    s.goSpace j plan =
      match ((d.index.map (·.1)).filter fun f => f < plan.origin).reverse[plan.count.natAbs - 1]? with
      | some f => s.goRecord { j with space := some plan } f (some (spaceFinish plan .ok (-(plan.count.natAbs : Int))))
      | none =>
        s.goRecord { j with space := some plan } 0
          (some (spaceFinish plan .ok (-(((d.index.map (·.1)).filter fun f => f < plan.origin).length : Int)))) := by
  have hback : ¬0 < plan.count := by omega
  rw [goSpace_marks_indexed j hf (fullIndex_complete hv hc)]
  simp only [hback, if_false]
  unfold State.decideMarks
  dsimp only
  rw [if_neg hback] <;> cases ((d.index.map (·.1)).filter fun f => f < plan.origin).reverse[plan.count.natAbs - 1]? <;> rfl

/-- A space forward by filemarks without a complete index searches from the carried position. -/
theorem goSpace_marks_searched (j : Job) (hf : plan.filemarks = true) (hpos : 0 < plan.count) (hi : s.fullIndex = none)
    (hlow : ∀ d, s.validDirectory = some d → plan.origin < d.eodRecord) {p : DsPos} (hp : s.mc.dsPos = some p) :
    s.goSpace j plan =
      s.goSearch { j with space := some plan }
        (s.marksSearch plan.origin (s.validDirectory.map (·.eodRecord)) plan.count.natAbs p.carried) := by
  have hstart : s.scanStart (fun _ => true) = p.carried := scanStart_of_some hp _
  unfold State.goSpace
  rw [hi, hf]
  dsimp only
  rw [if_neg (by decide), if_pos hpos, hstart]
  cases hv : s.validDirectory with
  | none => rfl
  | some d =>
    dsimp only
    rw [if_neg (Nat.not_le.mpr (hlow d hv))]
    rfl

/-- A space back by filemarks without a complete index searches above the last pair that the index holds below here. -/
theorem goSpace_marks_searched_back (j : Job) (hf : plan.filemarks = true) (hneg : plan.count < 0) (hi : s.fullIndex = none) :
    s.goSpace j plan =
      s.goSearch { j with space := some plan }
        (match (((s.validDirectory.map (·.index)).getD []).filter fun e => e.1 < plan.origin).getLast?, s.validDirectory with
        | some (f, t), some d => s.marksSearch (f + 1) (some plan.origin) 0 (d.stripeStart t)
        | _, _ => s.marksSearch 0 (some plan.origin) 0 { pass := 0, mark := 0 }) := by
  unfold State.goSpace
  rw [hi, hf]
  dsimp only
  rw [if_neg (by decide), if_neg (by omega)]
  generalize (((s.validDirectory.map (·.index)).getD []).filter fun e => e.1 < plan.origin).getLast? = last
  rcases last with _ | ⟨f, t⟩ <;> cases s.validDirectory <;> rfl

end

end

/-- Settles O37: the places of LOCATE and LOCATE_EOD, and SPACE by its count's sign and kind. -/
theorem locatesGoWhereTheDirectorySays : Obligations.LocatesGoWhereTheDirectorySays := by
  refine ⟨fun s j t => ?_, fun s j r f => goRecord_goes j r f, fun s j plan => ?_⟩
  · obtain ⟨h1, h2, h3⟩ := goStripe_goes (s := s) j t
    exact ⟨h1, h2, h3, goEnd_goes j⟩
  · intro o n k ends searches marks
    refine ⟨fun hf hpos => ⟨fun d hv hc => ⟨fun f rest hm => ?_, fun hm => ?_⟩, fun d hv hc => ?_, fun hv p hp hrec => ?_⟩,
      fun hf hneg => ⟨fun d hv hc => ⟨fun f hm => ?_, fun hm => ?_⟩, fun d hv hc => ?_, fun hv p hp => ?_⟩,
      fun hf hpos => ⟨fun d hv hc => ?_, fun d p hv hc hlow hp => ?_, fun hv p hp => ?_⟩,
      fun hf hneg => ⟨fun d hv hc => ?_, fun d hv hc => ⟨fun f t hm => ?_, fun hm => ?_⟩, fun hv => ?_⟩⟩
    · rw [goSpace_records_forward j hf hpos hv hc, show inSpan _ _ _ = f :: rest from hm]
      rfl
    · rw [goSpace_records_forward j hf hpos hv hc, show inSpan _ _ _ = [] from hm]
      rfl
    · refine marksSearch_goes s k ?_
      rw [goSpace_records_searched j hf (fullIndex_incomplete hv hc), spaceAim_forward hv hpos, if_pos hpos, if_pos hpos,
        if_pos hpos, recordSearch_start_valid hv]
    · refine marksSearch_goes s k ?_
      rw [goSpace_records_searched j hf (fullIndex_absent hv), spaceAim_forward_absent hv hpos, if_pos hpos, if_pos hpos,
        if_pos hpos, recordSearch_start_scan hv, scanStart_of_some hp, if_pos (decide_eq_true (Nat.le_of_eq hrec))]
    · rw [goSpace_records_back j hf hneg hv hc, show (inSpan _ _ _).getLast? = some f from hm]
      rfl
    · rw [goSpace_records_back j hf hneg hv hc, show inSpan _ _ _ = [] from hm]
      rfl
    · refine marksSearch_goes s k ?_
      rw [goSpace_records_searched j hf (fullIndex_incomplete hv hc), spaceAim_back hneg, if_neg (by omega),
        if_neg (by omega), if_neg (by omega), recordSearch_start_valid hv]
    · refine marksSearch_goes s k ?_
      rw [goSpace_records_searched j hf (fullIndex_absent hv), spaceAim_back hneg, if_neg (by omega), if_neg (by omega),
        if_neg (by omega), recordSearch_start_scan hv, scanStart_of_some hp]
      simp only [decide_eq_true_eq]
      rfl
    · intro after
      refine ⟨fun f hm => ?_, fun hshort => ?_⟩
      · rw [goSpace_marks_forward j hf hpos hv hc, show (List.filter _ _)[plan.count.natAbs - 1]? = some f from hm]
        rfl
      · have hnone : after[plan.count.natAbs - 1]? = none := List.getElem?_eq_none (by omega)
        rw [goSpace_marks_forward j hf hpos hv hc, show (List.filter _ _)[plan.count.natAbs - 1]? = none from hnone]
        exact goPlace_mc ..
    · refine marksSearch_goes s k ?_
      rw [goSpace_marks_searched j hf hpos (fullIndex_incomplete hv hc) (fun e he => ?_) hp, hv]
      · rfl
      · rw [hv] at he
        exact Option.some.inj he ▸ hlow
    · refine marksSearch_goes s k ?_
      rw [goSpace_marks_searched j hf hpos (fullIndex_absent hv) (fun e he => ?_) hp, hv]
      · rfl
      · rw [hv] at he
        exact absurd he nofun
    · intro before
      refine ⟨fun f hm => ?_, fun hshort => ?_⟩
      · rw [goSpace_marks_back j hf hneg hv hc, show (List.filter _ _).reverse[plan.count.natAbs - 1]? = some f from hm]
        rfl
      · have hnone : before.reverse[plan.count.natAbs - 1]? = none :=
          List.getElem?_eq_none (by rw [List.length_reverse]; omega)
        rw [goSpace_marks_back j hf hneg hv hc, show (List.filter _ _).reverse[plan.count.natAbs - 1]? = none from hnone]
        rfl
    · refine marksSearch_goes s k ?_
      rw [goSpace_marks_searched_back j hf hneg (fullIndex_incomplete hv hc), hv]
      exact congrArg (s.goSearch _) (by
        dsimp only [Option.map_some, Option.getD_some]
        rw [hm])
    · refine marksSearch_goes s k ?_
      rw [goSpace_marks_searched_back j hf hneg (fullIndex_incomplete hv hc), hv]
      exact congrArg (s.goSearch _) (by
        dsimp only [Option.map_some, Option.getD_some]
        rw [hm]
        rfl)
    · refine marksSearch_goes s k ?_
      rw [goSpace_marks_searched_back j hf hneg (fullIndex_absent hv), hv]
      rfl

end Sys2Proof.Machine
end

section
/-! Data commands as they are taken (R38, R39, R62 to R64, R75, R84, R85, R94): O48 and O49. -/

namespace Sys2Proof.Machine

section
variable {s : State} {flags : BitVec 8} (tag : BitVec 16) {cmd : HostCmd}

/-- The only data command, sound and not held back, is dispatched by its kind; one that cannot go on waits. -/
theorem data_runs (h : s.Takes flags) (hg : cmd.group = .data) (hc : ∀ k, cmd ≠ .unknown k) (hq : s.ci.dataQueue = [])
    (hp : (if cmd.announces then s.intakeHeld else !s.pe.intake.isEmpty) = false) :
    s.command tag flags cmd = State.finish
      ((match (s.entry tag flags cmd).cmd with
        | .streamRecord count lengths => (s.join (s.entry tag flags cmd)).headStream (s.entry tag flags cmd) count lengths
        | .writeMark count sync => (s.join (s.entry tag flags cmd)).headMark (s.entry tag flags cmd) count sync
        | .flush => (s.join (s.entry tag flags cmd)).headFlush (s.entry tag flags cmd)
        | .openWrite => (s.join (s.entry tag flags cmd)).headOpenWrite (s.entry tag flags cmd)
        | .openRead => (s.join (s.entry tag flags cmd)).headOpenRead (s.entry tag flags cmd)
        | .deliverRecord length => (s.join (s.entry tag flags cmd)).headDeliver (s.entry tag flags cmd) length
        | _ => some ((s.join (s.entry tag flags cmd)).completeBare s.ci.nextId .refusedArgument)).getD
          (s.join (s.entry tag flags cmd))) := by
  rw [command_data h tag hg]
  refine congrArg State.finish (congrArg (Option.getD · (s.join (s.entry tag flags cmd))) ?_)
  exact serveData_alone h tag hg hc hq hp

/-- A data command that completes bare as the head of its queue. -/
theorem head_refused (h : s.Takes flags) (r : Result) :
    (some ((s.join (s.entry tag flags cmd)).completeBare (s.entry tag flags cmd).id r)).getD (s.join (s.entry tag flags cmd))
      = s.takenDone tag flags cmd r noDetail noDetail :=
  completeBare_join s tag flags cmd r h.1

end

/-! ### Opening a write session (R62 to R64) -/

section
variable {s : State} {flags : BitVec 8} (tag : BitVec 16)

/-- OPEN_WRITE at the head of the data queue as it is taken. -/
theorem openWrite_head (s : State) (flags : BitVec 8) :
    (s.join (s.entry tag flags .openWrite)).headOpenWrite (s.entry tag flags .openWrite) =
      match s.openWriteCheck with
      | some r => some ((s.join (s.entry tag flags .openWrite)).completeBare s.ci.nextId r)
      | none =>
        if s.cml.recorded = .notValid then some ((s.join (s.entry tag flags .openWrite)).openSession s.ci.nextId)
        else if s.cml.op.isSome then none
        else
          some (((s.join (s.entry tag flags .openWrite)).setStage s.ci.nextId .running).beginLink (.invalidate s.ci.nextId)
            [.write 2]) := by
  unfold State.headOpenWrite
  exact if_neg (not_not_intro rfl)

theorem openWrite_runs (h : s.Takes flags) (hq : s.ci.dataQueue = []) (hp : s.pe.intake = []) {e : State}
    (he : ((s.join (s.entry tag flags .openWrite)).headOpenWrite (s.entry tag flags .openWrite)).getD
      (s.join (s.entry tag flags .openWrite)) = e) :
    exec (.openWrite tag flags) s = Host.Outcome.next e.finish := by
  have hfree : (if HostCmd.openWrite.announces then s.intakeHeld else !s.pe.intake.isEmpty) = false := by
    rw [hp]
    rfl
  exact next_congr ((data_runs tag h rfl (by simp) hq hfree).trans (congrArg State.finish he))

/-- The directory cut back for a session, with its dirty marks (R64, R142). -/
theorem truncateDirectory_cml (s : State) (stripe record : Nat) (w : TapePos) {d : Directory} (hd : s.cml.directory = some d) :
    (s.truncateDirectory stripe record w).cml =
      { s.cml with
        directory := some (d.truncate stripe record w)
        dirty := { s.cml.dirty with
          header := true
          wholeIndex := true
          passes := (changedPasses d (d.truncate stripe record w)).foldl markOnce s.cml.dirty.passes } } := by
  show (match s.cml.directory with | none => s.cml | some d => _) = _
  rw [hd]

theorem writePointFor_of_some {s : State} {d : Directory} (hd : s.cml.directory = some d) (p : DsPos) :
    s.writePointFor p = if p.stripe = d.eodStripe then d.endPos else p.carried := by
  unfold State.writePointFor
  rw [hd]

theorem openSession_join (h : s.Takes flags) {p : DsPos} {d : Directory} (hp : s.mc.dsPos = some p)
    (hd : s.cml.directory = some d) :
    (s.join (s.entry tag flags .openWrite)).openSession s.ci.nextId =
      State.takenDone
        { s with
          cml := (s.truncateDirectory p.stripe p.record (s.writePointFor p)).cml
          tte := { s.tte with
            writePoint := some (s.writePointFor p), cause := none, inFlight := none, verify := none, runOn := none
            underrun := false }
          spm := { s.spm with direction := .writeOpen, clearing := false, dropFrom := none }
          pe := { s.pe with cursor := 0, nextRecord := p.record }, rg := { s.rg with f := 0, sampleTime := some s.ms } }
        tag flags .openWrite .ok (dv 4 p.stripe ++ dv 2 (d.generation + 1) ++ du 2)
        (dv 4 p.record ++ dv 1 (s.writePointFor p).pass ++ dv 2 (s.writePointFor p).mark ++ du 1) := by
  have hgeneration : ((s.truncateDirectory p.stripe p.record (s.writePointFor p)).cml.directory.map (·.generation)).getD 0
      = d.generation + 1 := by
    rw [truncateDirectory_cml s _ _ _ hd]
    rfl
  rw [← complete_join _ tag flags .openWrite .ok _ _ (by exact h.1), ← hgeneration]
  unfold State.openSession
  rw [show (s.join (s.entry tag flags .openWrite)).mc.dsPos = some p from hp]
  rfl

/-! ### Opening a read session (R84, R85) -/

theorem openRead_runs (h : s.Takes flags) (hq : s.ci.dataQueue = []) (hp : s.pe.intake = []) {e : State}
    (he : ((s.join (s.entry tag flags .openRead)).headOpenRead (s.entry tag flags .openRead)).getD
      (s.join (s.entry tag flags .openRead)) = e) :
    exec (.openRead tag flags) s = Host.Outcome.next e.finish := by
  have hfree : (if HostCmd.openRead.announces then s.intakeHeld else !s.pe.intake.isEmpty) = false := by
    rw [hp]
    rfl
  exact next_congr ((data_runs tag h rfl (by simp) hq hfree).trans (congrArg State.finish he))

/-- OPEN_READ at the head of the data queue as it is taken. -/
theorem openRead_head (s : State) (flags : BitVec 8) :
    (s.join (s.entry tag flags .openRead)).headOpenRead (s.entry tag flags .openRead) =
      match s.openReadCheck with
      | some r => some ((s.join (s.entry tag flags .openRead)).completeBare s.ci.nextId r)
      | none => some ((s.join (s.entry tag flags .openRead)).openRead s.ci.nextId) := rfl

theorem readPosition_of_some {s : State} {p : DsPos} (hp : s.mc.dsPos = some p) : s.readPosition = p := by
  unfold State.readPosition
  rw [hp]
  rfl

theorem openRead_join (h : s.Takes flags) {p : DsPos} (hp : s.mc.dsPos = some p) :
    (s.join (s.entry tag flags .openRead)).openRead s.ci.nextId =
      State.beginRead (State.takenDone
        { ({ s with spm := { s.spm with direction := .readOpen } } : State).formRead p with
          ue := Ue.reset, rg := { s.rg with f := 0, sampleTime := some s.ms } } tag flags .openRead .ok
        (dv 4 p.stripe ++ dv 1 p.carried.pass ++ dv 2 p.carried.mark ++ du 1)
        (dv 4 (match s.validDirectory with | some d => d.eodStripe | none => 4294967295) ++ dv 1 s.cml.condition.code
          ++ du 3)) := by
  rw [← complete_join _ tag flags .openRead .ok _ _ (by exact h.1)]
  unfold State.openRead
  rw [show (s.join (s.entry tag flags .openRead)).readPosition = p from readPosition_of_some hp]
  rfl

end

/-- Settles O48: the first condition that fails answers; else the session opens. -/
theorem sessionsOpen : Obligations.SessionsOpen := by
  intro s tag flags h hq hp
  refine ⟨fun r hr => openWrite_runs tag h hq hp ?_, fun hr hvalid hop => openWrite_runs tag h hq hp ?_,
    fun p d hr hnot hpos hd => ?_, fun r hr => openRead_runs tag h hq hp ?_, fun p hr hpos => ?_⟩
  · rw [openWrite_head, hr]
    exact head_refused tag h r
  · rw [openWrite_head, hr]
    dsimp only
    rw [if_neg hvalid, if_neg (by rw [hop]; exact nofun), running_data s tag flags .openWrite h.1 rfl]
    rfl
  · intro w
    refine ⟨openWrite_runs tag h hq hp ?_, ?_⟩
    · rw [openWrite_head, hr]
      dsimp only
      rw [if_pos hnot, openSession_join tag h hpos hd, writePointFor_of_some hd]
      rfl
    · intro k
      have hk : k = _ := congrArg Cml.dirty (truncateDirectory_cml s p.stripe p.record w hd)
      rw [hk]
      exact ⟨rfl, rfl, rfl⟩
  · rw [openRead_head, hr]
    exact head_refused tag h r
  · intro end_ e
    refine openRead_runs tag h hq hp ?_
    rw [openRead_head, hr]
    dsimp only
    exact openRead_join tag h hpos

/-! ### Records and deliveries (R38, R39, R75, R94) -/

section
variable {s : State} {flags : BitVec 8} (tag : BitVec 16)

theorem writeRefusal_of_open {s : State} (hopen : s.spm.direction = .writeOpen) : s.writeRefusal = none := by
  unfold State.writeRefusal
  rw [hopen]

/-- A direction that refuses records is not WRITE_OPEN, so that no UNLOAD holds them back (R35, R75). -/
theorem intakeHeld_of_refusal {s : State} {r : Result} (hr : s.writeRefusal = some r) : s.intakeHeld = false := by
  have hdir : s.spm.direction ≠ .writeOpen := fun hopen => by
    rw [writeRefusal_of_open hopen] at hr
    exact absurd hr nofun
  unfold State.intakeHeld
  rw [beq_eq_false_iff_ne.mpr hdir, Bool.false_and]

theorem streamOk_iff {count : Nat} {lengths : List Nat} :
    streamOk count lengths = true ↔ 1 ≤ count ∧ count ≤ 6 ∧ ∀ l ∈ lengths.take count, l ≤ 16777215 := by
  unfold streamOk
  simp only [Bool.and_eq_true, decide_eq_true_eq, List.all_eq_true, and_assoc]
  rfl

/-- A data command that runs and has left its queue in the step that takes it (R38, R39). -/
theorem running_left (e : State) (flags : BitVec 8) {cmd : HostCmd} (hn : e.ci.Numbered) (hg : cmd.group = .data)
    (hq : e.ci.dataQueue = []) :
    (((e.join (e.entry tag flags cmd)).setStage e.ci.nextId .running).onCi fun c =>
        { c with dataQueue := c.dataQueue.filter (· != e.ci.nextId) })
      = e.takenOut tag flags cmd .running := by
  rw [running_data e tag flags cmd hn hg]
  unfold State.takenData State.takenOut State.onCi
  simp [hq]

theorem headStream_join (h : s.Takes flags) (hq : s.ci.dataQueue = []) (hopen : s.writeRefusal = none) (count : Nat)
    (lengths : List Nat) (hnext : streamOk count lengths = true → s.pe.next = none) :
    ((s.join (s.entry tag flags (.streamRecord count lengths))).headStream (s.entry tag flags (.streamRecord count lengths))
        count lengths).getD (s.join (s.entry tag flags (.streamRecord count lengths))) =
      if streamOk count lengths = true then
        State.takenOut { s with pe := s.pe.takeStream s.ci.nextId (lengths.take count) s.earlyWarning } tag flags
          (.streamRecord count lengths) .running
      else s.takenDone tag flags (.streamRecord count lengths) .refusedArgument noDetail noDetail := by
  unfold State.headStream
  rw [show (s.join (s.entry tag flags (.streamRecord count lengths))).writeRefusal = none from hopen]
  dsimp only
  by_cases hok : streamOk count lengths = true
  · rw [if_neg (by simp [hok]), if_pos hok,
      if_neg (by rw [show (s.join _).pe.next = none from hnext hok]; exact nofun)]
    exact congrArg (fun e => e.onPe fun p => p.takeStream s.ci.nextId (lengths.take count) s.earlyWarning)
      (running_left tag s flags (cmd := .streamRecord count lengths) h.1 rfl hq)
  · rw [if_pos (by simpa using hok), if_neg hok]
    exact head_refused tag h _

theorem headMark_join (h : s.Takes flags) (hq : s.ci.dataQueue = []) (hopen : s.writeRefusal = none) (count sync : Nat) :
    ((s.join (s.entry tag flags (.writeMark count sync))).headMark (s.entry tag flags (.writeMark count sync))
        count sync).getD (s.join (s.entry tag flags (.writeMark count sync))) =
      if count = 0 ∨ 1 < sync then s.takenDone tag flags (.writeMark count sync) .refusedArgument noDetail noDetail
      else
        State.takenOut { s with pe := s.pe.takeMark s.ci.nextId count (sync == 1) s.earlyWarning } tag flags
          (.writeMark count sync) .running := by
  unfold State.headMark
  rw [show (s.join (s.entry tag flags (.writeMark count sync))).writeRefusal = none from hopen]
  dsimp only
  by_cases hbad : count = 0 ∨ 1 < sync
  · rw [if_pos hbad, if_pos hbad]
    exact head_refused tag h _
  · rw [if_neg hbad, if_neg hbad]
    exact congrArg (fun e => e.onPe fun p => p.takeMark s.ci.nextId count (sync == 1) s.earlyWarning)
      (running_left tag s flags (cmd := .writeMark count sync) h.1 rfl hq)

theorem headDeliver_join (h : s.Takes flags) (length : Nat) :
    ((s.join (s.entry tag flags (.deliverRecord length))).headDeliver (s.entry tag flags (.deliverRecord length))
        length).getD (s.join (s.entry tag flags (.deliverRecord length))) =
      match s.spm.direction with
      | .writeFailed => s.takenDone tag flags (.deliverRecord length) s.causeResult noDetail noDetail
      | .readOpen =>
        if 16777215 < length then s.takenDone tag flags (.deliverRecord length) .refusedArgument noDetail noDetail
        else
          (State.takenData
            { s with ue := { s.ue with state := .opening, cmd := some s.ci.nextId, length := length, cursor := 0
                                       record := none, output := [], decoder := Decoder.empty } }
            tag flags (.deliverRecord length) .running).tryOpen
      | _ => s.takenDone tag flags (.deliverRecord length) .refusedState noDetail noDetail := by
  unfold State.headDeliver
  rw [if_neg (show ¬(s.entry tag flags (.deliverRecord length)).stage ≠ .waiting from not_not_intro rfl),
    show (s.join (s.entry tag flags (.deliverRecord length))).spm.direction = s.spm.direction from rfl]
  cases s.spm.direction with
  | none => exact head_refused tag h _
  | writeOpen => exact head_refused tag h _
  | writeFailed => exact head_refused tag h _
  | readOpen =>
    dsimp only
    by_cases hlong : 16777215 < length
    · rw [if_pos hlong, if_pos (show Config.maxRecord < length from hlong)]
      exact head_refused tag h _
    · rw [if_neg hlong, if_neg (show ¬Config.maxRecord < length from hlong)]
      exact congrArg
        (fun e : State => (e.onUe fun u => { u with
          state := .opening, cmd := some s.ci.nextId, length := length, cursor := 0, record := none, output := []
          decoder := Decoder.empty }).tryOpen)
        (running_data s tag flags (.deliverRecord length) h.1 rfl)

end

/-- Settles O49: refused by the direction or the arguments, else taken or opened. -/
theorem recordsTakenAndDelivered : Obligations.RecordsTakenAndDelivered := by
  intro s tag flags count sync lengths length h hq ls stream mark
  have hstream (hheld : s.intakeHeld = false) := data_runs tag h (cmd := stream) rfl (by simp [stream]) hq hheld
  have hmark (hheld : s.intakeHeld = false) := data_runs tag h (cmd := mark) rfl (by simp [mark]) hq hheld
  have hdeliver (hp : s.pe.intake = []) := data_runs tag h (cmd := .deliverRecord length.toNat) rfl (by simp) hq
    (by rw [hp]; rfl)
  have hlate (hp : s.pe.intake = []) := (hdeliver hp).trans (congrArg State.finish (headDeliver_join tag h length.toNat))
  refine ⟨fun r hr => ⟨next_congr ?_, next_congr ?_⟩, fun hopen hheld => ⟨fun hbad => next_congr ?_,
    fun hlow hhigh hlong hnext => next_congr ?_, next_congr ?_⟩, fun hp hdir => next_congr ?_, fun hp hdir => next_congr ?_⟩
  · refine (hstream (intakeHeld_of_refusal hr)).trans (congrArg State.finish ?_)
    refine Eq.trans (congrArg (Option.getD · _) ?_) (head_refused tag h r)
    show State.headStream _ _ _ _ = _
    unfold State.headStream
    rw [show (s.join (s.entry tag flags stream)).writeRefusal = some r from hr]
  · refine (hmark (intakeHeld_of_refusal hr)).trans (congrArg State.finish ?_)
    refine Eq.trans (congrArg (Option.getD · _) ?_) (head_refused tag h r)
    show State.headMark _ _ _ _ = _
    unfold State.headMark
    rw [show (s.join (s.entry tag flags mark)).writeRefusal = some r from hr]
  · have hnot : ¬streamOk count.toNat (lengths.map (·.toNat)) = true := by
      rw [streamOk_iff]
      rintro ⟨hlow, hhigh, hlong⟩
      rcases hbad with hzero | hmany | ⟨l, hl, hover⟩
      · omega
      · omega
      · exact absurd (hlong l hl) (by omega)
    exact (hstream hheld).trans (congrArg State.finish ((headStream_join tag h hq (writeRefusal_of_open hopen) _ _
      (fun hok => absurd hok hnot)).trans (if_neg hnot)))
  · have hok : streamOk count.toNat (lengths.map (·.toNat)) = true := streamOk_iff.mpr ⟨hlow, hhigh, hlong⟩
    exact (hstream hheld).trans (congrArg State.finish ((headStream_join tag h hq (writeRefusal_of_open hopen) _ _
      (fun _ => hnext)).trans (if_pos hok)))
  · exact (hmark hheld).trans (congrArg State.finish (headMark_join tag h hq (writeRefusal_of_open hopen) _ _))
  · refine (hlate hp).trans (congrArg State.finish ?_)
    rcases hdir with hdir | hdir <;> rw [hdir]
  · refine (hlate hp).trans (congrArg State.finish ?_)
    rw [hdir]

end Sys2Proof.Machine
end

section
/-! FLUSH, CLOSE and ABORT as they are taken, and the ends of a session (R33, R35, R78, R79, R81, R102, R186): O50. -/

namespace Sys2Proof.Machine

/-! ### Commands that complete later in the step that takes them -/

theorem filter_appended {l : List Nat} {n : Nat} (h : ∀ k ∈ l, k < n) : (l ++ [n]).filter (· != n) = l := by
  rw [List.filter_append, filter_fresh h]
  simp

section
variable (e : State) (tag : BitVec 16) (flags : BitVec 8) (cmd : HostCmd)

/-- The command just taken completes, whatever its stage and its queues: they drop it (R183, R187). -/
theorem complete_entry (hn : e.ci.Numbered) {g : Stage} (hg : g ≠ .handed) {mq dq ab : List Nat} (r : Result) (a b : Detail)
    (hm : mq.filter (· != e.ci.nextId) = e.ci.motionQueue) (hd : dq.filter (· != e.ci.nextId) = e.ci.dataQueue)
    (ha : ab.filter (· != e.ci.nextId) = e.ci.aborts) :
    State.complete
      (e.onCi fun c => { c with
        outstanding := c.outstanding ++ [e.newEntry tag flags cmd g], nextId := c.nextId + 1, motionQueue := mq
        dataQueue := dq, aborts := ab }) e.ci.nextId r a b
      = e.takenDone tag flags cmd r a b := by
  obtain ⟨h1, -, -, h4, -⟩ := hn
  have hf : (e.ci.outstanding ++ [e.newEntry tag flags cmd g]).find?
      (fun t => t.id == e.ci.nextId && t.stage != .handed) = some (e.newEntry tag flags cmd g) := by
    rw [List.find?_append, find_fresh h1]
    simp [State.newEntry, hg]
  unfold State.complete
  rw [show (e.onCi _).ci.outstanding = e.ci.outstanding ++ [e.newEntry tag flags cmd g] from rfl, hf]
  dsimp only
  unfold State.takenDone State.takenOut
  congr 1
  simp only [State.onCi, State.onCw, hm, hd, ha, filter_fresh h4, List.map_append, map_fresh h1]
  simp [State.newEntry]
  rfl

/-- A data command that runs completes in the step that takes it. -/
theorem complete_running (hn : e.ci.Numbered) (r : Result) (a b : Detail) :
    (e.takenData tag flags cmd .running).complete e.ci.nextId r a b = e.takenDone tag flags cmd r a b := by
  obtain ⟨-, h2, h3, -, h5⟩ := id hn
  exact complete_entry e tag flags cmd hn (by decide) r a b (filter_fresh h2)
    (filter_appended h3) (filter_fresh h5)

/-- An ABORT as it starts to run: it waits with the others (R186). -/
def State.takenAbort : State :=
  (e.takenOut tag flags .abort .running).onCi fun c => { c with aborts := c.aborts ++ [e.ci.nextId] }

/-- The only ABORT that waits completes. -/
theorem completeAborts_taken (hn : e.ci.Numbered) (hnone : e.ci.aborts = []) :
    (e.takenAbort tag flags).completeAborts = e.takenDone tag flags .abort .ok noDetail noDetail := by
  obtain ⟨-, h2, h3, -, h5⟩ := id hn
  have haborts : (e.takenAbort tag flags).ci.aborts = [e.ci.nextId] := by
    show e.ci.aborts ++ [e.ci.nextId] = _
    rw [hnone, List.nil_append]
  unfold State.completeAborts
  rw [haborts]
  exact complete_entry e tag flags .abort hn (by decide) .ok noDetail noDetail (filter_fresh h2) (filter_fresh h3)
    (filter_appended h5)

/-- An operation that neither reads nor sets the Command Intake acts before or after a command joins. -/
theorem join_commutes {G : State → State} (hG : ∀ (s : State) (f : Ci → Ci), G (s.onCi f) = (G s).onCi f)
    (hci : (G e).ci = e.ci) : G (e.join (e.entry tag flags cmd)) = (G e).join ((G e).entry tag flags cmd) := by
  unfold State.join State.entry State.newTaken
  rw [hG, hci]

theorem takenAbort_commutes {G : State → State} (hG : ∀ (s : State) (f : Ci → Ci), G (s.onCi f) = (G s).onCi f)
    (hci : (G e).ci = e.ci) : G (e.takenAbort tag flags) = (G e).takenAbort tag flags := by
  unfold State.takenAbort State.takenOut State.newEntry
  rw [hG, hG, hci]

end

/-! ### The direction leaves (R33, R81, R102) -/

section
variable (s : State) (f : Ci → Ci)

theorem leaveWrite_onCi : (s.onCi f).leaveWrite = s.leaveWrite.onCi f := by
  unfold State.leaveWrite State.positionAtEnd
  dsimp only
  show (match s.cml.directory with | some d => _ | none => _) = State.onCi (match s.cml.directory with | some d => _ | none => _) f
  cases s.cml.directory <;> rfl

theorem leaveWrite_ci : s.leaveWrite.ci = s.ci := by
  unfold State.leaveWrite State.positionAtEnd
  dsimp only
  split <;> rfl

theorem abandonReception_onCi : (s.onCi f).abandonReception = s.abandonReception.onCi f := by
  unfold State.abandonReception
  rw [show (s.onCi f).tte = s.tte from rfl]
  cases s.tte.read.bind (·.reception) <;> rfl

theorem abandonReception_ci : s.abandonReception.ci = s.ci := by
  unfold State.abandonReception
  split <;> rfl

theorem leaveRead_onCi : (s.onCi f).leaveRead = s.leaveRead.onCi f := by
  unfold State.leaveRead State.clearRead
  rw [abandonReception_onCi]
  generalize s.abandonReception = e
  rfl

theorem leaveRead_ci : s.leaveRead.ci = s.ci := by
  rw [← abandonReception_ci s]
  unfold State.leaveRead State.clearRead
  generalize s.abandonReception = e
  rfl

theorem stopReposition_onCi : (s.onCi f).stopReposition = s.stopReposition.onCi f := by
  unfold State.stopReposition
  show (if s.mc.state = .repositioning then _ else _) = _
  split <;> rfl

theorem stopReposition_ci : s.stopReposition.ci = s.ci := by
  unfold State.stopReposition
  split <;> rfl

theorem stopStreaming_onCi : (s.onCi f).stopStreaming = s.stopStreaming.onCi f := by
  unfold State.stopStreaming
  show (if s.mc.state = .streaming then _ else _) = _
  split
  · rfl
  · exact stopReposition_onCi s f

theorem stopStreaming_ci : s.stopStreaming.ci = s.ci := by
  unfold State.stopStreaming
  split
  · rfl
  · exact stopReposition_ci s

end

/-! ### CLOSE (R33) -/

section
variable {s : State} {flags : BitVec 8} (tag : BitVec 16)

theorem runClose_join (h : s.Takes flags) :
    (s.join (s.entry tag flags .close)).runClose s.ci.nextId =
      match s.spm.direction with
      | .none => s.takenDone tag flags .close .ok noDetail noDetail
      | .writeOpen =>
        if s.spm.allFree then s.leaveWrite.takenDone tag flags .close .ok noDetail noDetail
        else s.takenDone tag flags .close .pendingWrite noDetail noDetail
      | .writeFailed => s.takenDone tag flags .close .refusedState noDetail noDetail
      | .readOpen =>
        if s.delivering then s.takenDone tag flags .close .refusedState noDetail noDetail
        else s.leaveRead.stopStreaming.takenDone tag flags .close .ok noDetail noDetail := by
  have hwrite : (s.join (s.entry tag flags .close)).leaveWrite.completeBare s.ci.nextId .ok
      = s.leaveWrite.takenDone tag flags .close .ok noDetail noDetail := by
    have hid : s.leaveWrite.ci = s.ci := leaveWrite_ci s
    rw [join_commutes s tag flags .close leaveWrite_onCi hid, ← completeBare_join s.leaveWrite tag flags .close .ok
      (by rw [hid]; exact h.1), hid]
  have hread : (s.join (s.entry tag flags .close)).leaveRead.stopStreaming.completeBare s.ci.nextId .ok
      = s.leaveRead.stopStreaming.takenDone tag flags .close .ok noDetail noDetail := by
    have hid : s.leaveRead.stopStreaming.ci = s.ci := (stopStreaming_ci _).trans (leaveRead_ci s)
    rw [join_commutes s tag flags .close (G := fun e => e.leaveRead.stopStreaming)
      (fun e f => by rw [leaveRead_onCi, stopStreaming_onCi]) hid,
      ← completeBare_join s.leaveRead.stopStreaming tag flags .close .ok (by rw [hid]; exact h.1), hid]
  have hdelivering : (s.join (s.entry tag flags .close)).delivering = s.delivering := by
    unfold State.delivering
    show (s.ci.outstanding ++ [s.entry tag flags .close]).any _ = _
    rw [List.any_append]
    simp [State.newTaken]
  have hdone (r : Result) := completeBare_join s tag flags .close r h.1
  unfold State.runClose
  rw [hdelivering, hwrite, hread, hdone, hdone, hdone]
  rfl

/-! ### FLUSH (R78, R79) -/

theorem tryRecord_rg (e : State) : e.tryRecord.rg = e.rg := by
  unfold State.tryRecord
  split <;> rfl

theorem writeEmpty_of_filling {s : State} {i : Nat} (hfill : s.filling = some i) : s.spm.writeEmpty = false := by
  unfold State.filling Spm.firstIn at hfill
  split at hfill
  · exact absurd hfill nofun
  · obtain ⟨hlt, hstate, -⟩ := List.findIdx?_eq_some_iff_getElem.1 hfill
    refine Bool.eq_false_iff.mpr fun hall => ?_
    have := List.all_eq_true.1 hall _ (List.getElem_mem hlt)
    rw [beq_iff_eq.1 hstate] at this
    exact absurd this (by decide)

/-- A seal trigger over a slot whose entries are all closed asks for the header's write (R22, case 3). -/
theorem triggerSeal_of_closed {s : State} {i : Nat} (hfill : s.filling = some i) (hopen : s.pe.entryOpen = false)
    (hsome : (s.slotAt i).entries ≠ 0) :
    s.triggerSeal =
      { s with
        pe := { s.pe with emit := .begin_ }
        spm := { s.spm with
          sealing := some { slot := i, writes := [(s.slotBase i, Header.sealed ((s.slotAt i).stripe.getD 0)
            ((s.cml.directory.map (·.generation)).getD 0) (s.slotAt i).entries ((s.slotAt i).firstRecord.getD 0)
            (s.slotAt i).dataBytes)] } } } := by
  have hkept : s.withdrawBare i = s := by
    unfold State.withdrawBare
    rw [hopen]
    rfl
  have hwrites : s.sealWrites i = [(s.slotBase i, Header.sealed ((s.slotAt i).stripe.getD 0)
      ((s.cml.directory.map (·.generation)).getD 0) (s.slotAt i).entries ((s.slotAt i).firstRecord.getD 0)
      (s.slotAt i).dataBytes)] := by
    unfold State.sealWrites
    rw [hopen]
    rfl
  have hclosed : ({ s.pe with entryOpen := false, emit := .begin_ } : Pe) = { s.pe with emit := .begin_ } :=
    (congrArg (fun b => { s.pe with entryOpen := b, emit := .begin_ }) hopen).symm
  unfold State.triggerSeal
  rw [hfill]
  dsimp only
  rw [hkept, if_neg hsome, hwrites]
  unfold State.onPe State.onSpm
  dsimp only
  rw [hopen, Bool.false_and, if_neg Bool.false_ne_true, hclosed]

theorem headFlush_join (s : State) (flags : BitVec 8) :
    (s.join (s.entry tag flags .flush)).headFlush (s.entry tag flags .flush) =
      match s.spm.direction with
      | .writeFailed =>
        if s.writingDone then
          some ((s.join (s.entry tag flags .flush)).complete s.ci.nextId s.causeResult s.flushDetails.1 s.flushDetails.2)
        else some ((s.join (s.entry tag flags .flush)).setStage s.ci.nextId .running)
      | .writeOpen =>
        let t := ((s.join (s.entry tag flags .flush)).setStage s.ci.nextId .running).triggerSeal
        some (if t.spm.writeEmpty then t.endFlush s.ci.nextId (okOr t.earlyWarning) else t)
      | _ => some ((s.join (s.entry tag flags .flush)).completeBare s.ci.nextId .refusedState) := by
  unfold State.headFlush
  rw [if_neg (show ¬(s.entry tag flags .flush).stage = .aborted from nofun),
    show (s.join (s.entry tag flags .flush)).spm = s.spm from rfl]
  cases s.spm.direction <;> rfl

theorem flush_runs (h : s.Takes flags) (hq : s.ci.dataQueue = []) (hp : s.pe.intake = []) {e : State}
    (he : ((s.join (s.entry tag flags .flush)).headFlush (s.entry tag flags .flush)).getD
      (s.join (s.entry tag flags .flush)) = e) :
    exec (.flush tag flags) s = Host.Outcome.next e.finish := by
  have hfree : (if HostCmd.flush.announces then s.intakeHeld else !s.pe.intake.isEmpty) = false := by
    rw [hp]
    rfl
  exact next_congr ((data_runs tag h rfl (by simp) hq hfree).trans (congrArg State.finish he))

end

section
variable {s : State} {flags : BitVec 8} (tag : BitVec 16)

theorem triggerSeal_of_none {s : State} (hfill : s.filling = none) : s.triggerSeal = s := by
  unfold State.triggerSeal
  rw [hfill]

/-- A FLUSH with nothing left to write completes in the step that takes it (R78). -/
theorem flush_empty (h : s.Takes flags) (hfill : s.filling = none) (hempty : s.spm.writeEmpty = true) :
    (let t := ((s.join (s.entry tag flags .flush)).setStage s.ci.nextId .running).triggerSeal
      if t.spm.writeEmpty then t.endFlush s.ci.nextId (okOr t.earlyWarning) else t)
      = { s.takenDone tag flags .flush (if s.earlyWarning then .okEarlyWarning else .ok) (dv 4 s.endOfData.1 ++ du 4)
            (dv 4 s.endOfData.2 ++ du 4) with
          rg := { s.rg with flushed := true } } := by
  rw [running_data s tag flags .flush h.1 rfl, triggerSeal_of_none (s := s.takenData tag flags .flush .running) hfill]
  have hdone := complete_running s tag flags .flush h.1 (okOr s.earlyWarning) (dv 4 s.endOfData.1 ++ du 4)
    (dv 4 s.endOfData.2 ++ du 4)
  have hrg : (s.takenDone tag flags .flush (okOr s.earlyWarning) (dv 4 s.endOfData.1 ++ du 4)
      (dv 4 s.endOfData.2 ++ du 4)).rg = s.rg := tryRecord_rg _
  refine (if_pos (show (s.takenData tag flags .flush .running).spm.writeEmpty = true from hempty)).trans ?_
  refine (congrArg (fun e : State => e.onRg fun g => { g with flushed := true }) hdone).trans ?_
  unfold State.onRg
  rw [hrg]
  rfl

/-- A FLUSH over a FILLING slot asks for its header's sealing write and waits (R22, R78). -/
theorem flush_seals (h : s.Takes flags) {i : Nat} (hfill : s.filling = some i) (hopen : s.pe.entryOpen = false)
    (hsome : (s.slotAt i).entries ≠ 0) :
    (let t := ((s.join (s.entry tag flags .flush)).setStage s.ci.nextId .running).triggerSeal
      if t.spm.writeEmpty then t.endFlush s.ci.nextId (okOr t.earlyWarning) else t)
      = State.takenData
        { s with
          pe := { s.pe with emit := .begin_ }
          spm := { s.spm with
            sealing := some { slot := i, writes := [(s.slotBase i, Header.sealed ((s.slotAt i).stripe.getD 0)
              ((s.cml.directory.map (·.generation)).getD 0) (s.slotAt i).entries ((s.slotAt i).firstRecord.getD 0)
              (s.slotAt i).dataBytes)] } } } tag flags .flush .running := by
  have hseal := triggerSeal_of_closed (s := s.takenData tag flags .flush .running) hfill hopen hsome
  have hfull : s.spm.writeEmpty = false := writeEmpty_of_filling hfill
  rw [running_data s tag flags .flush h.1 rfl, hseal]
  exact if_neg fun hall => Bool.false_ne_true (hfull.symm.trans hall)

end

/-! ### ABORT (R35, R81, R102, R186) -/

section
variable {s : State}

theorem abortPack_of_empty (hp : s.pe.intake = []) : s.abortPack = s.onPe fun p => p.discard [] := by
  unfold State.abortPack
  rw [hp]
  rfl

theorem abortPool_of_none (hdir : s.spm.direction = .none) (hstill : s.mc.state ≠ .repositioning) : s.abortPool = s := by
  unfold State.abortPool
  rw [hdir]
  exact if_neg hstill

theorem abortJob_of_none (hjob : s.mc.job = none) : s.abortJob = s := by
  unfold State.abortJob
  rw [hjob]

theorem op_map_of_none (g : LinkOp → LinkOp) (hop : s.cml.op = none) :
    (s.onCml fun c => { c with op := c.op.map g }) = s := by
  have hsame : ∀ c : Cml, c.op = none → { c with op := c.op.map g } = c := by
    intro c hc
    rw [hc, Option.map_none, ← hc]
  exact congrArg (fun c => { s with cml := c }) (hsame s.cml hop)

/-- With no link operation in flight and no motion command left waiting ABORT reaches the data commands alone. -/
theorem abortQueues_of_data (hop : s.cml.op = none) (hmq : (s.ci.dataQueue.foldl State.cutData s).ci.motionQueue = []) :
    s.abortQueues = s.ci.dataQueue.foldl State.cutData s := by
  have hlink : ∀ id, s.onLink id = false := fun id => by
    unfold State.onLink
    rw [hop]
  unfold State.abortQueues
  dsimp only
  rw [op_map_of_none _ hop]
  simp only [hlink, Bool.not_false, List.filter_true]
  rw [hmq]
  rfl

theorem abortQueues_of_idle (hop : s.cml.op = none) (hdq : s.ci.dataQueue = []) (hmq : s.ci.motionQueue = []) :
    s.abortQueues = s := by
  rw [abortQueues_of_data hop] <;> rw [hdq]
  · rfl
  · exact hmq

/-- With no VERIFIED stripe nothing is freed (R28, R35). -/
theorem freeRun_of_unverified (h : ∀ x ∈ s.spm.slots, x.state ≠ .verified) : s.freeRun = s := by
  have hkept : s.sweepDropped = s := by
    unfold State.sweepDropped
    split
    next drop _ _ =>
      have hmap : (s.spm.slots.map fun x =>
          if (x.state == .verified && decide (drop < x.stripe.getD 0)) = true then Slot.empty else x) = s.spm.slots := by
        conv_rhs => rw [← List.map_id s.spm.slots]
        refine List.map_congr_left fun x hx => if_neg ?_
        rw [beq_eq_false_iff_ne.mpr (h x hx), Bool.false_and]
        exact Bool.false_ne_true
      exact congrArg (fun l => { s with spm := { s.spm with slots := l } }) hmap
    · rfl
  have hbottom : ¬s.BottomVerified := by
    rintro ⟨t, i, hlow, hv⟩
    obtain ⟨x, hx, -, -⟩ := mem_numbered.1 (lowestOf_mem hlow)
    rw [State.slotAt_of_get hx] at hv
    exact h x (List.mem_of_getElem? hx) hv
  unfold State.freeRun
  rw [hkept]
  exact State.freeVerified_of_not_bottom hbottom _

/-- A FILLING or SEALED slot, which ABORT frees at once (R35). -/
def Slot.dropsAtOnce (x : Slot) : Bool := x.state == .filling || x.state == .sealed

/-- The pool as ABORT leaves it while it clears the write side (R35). -/
def Spm.cleared (m : Spm) : Spm :=
  { m with
    slots := m.slots.map fun x => if x.dropsAtOnce then Slot.empty else x
    clearing := true, sealing := none, sealTimer := none
    dropFrom := minOpt m.dropFrom ((lowestOf (m.numbered Slot.dropsAtOnce)).map (·.1)) }

theorem clearWrite_of_unverified (h : ∀ x ∈ s.spm.slots, x.state ≠ .verified) :
    s.clearWrite = { s with spm := s.spm.cleared } := by
  refine freeRun_of_unverified (s := { s with spm := s.spm.cleared }) ?_
  intro x hx
  obtain ⟨y, hy, rfl⟩ := List.mem_map.1 hx
  split
  · decide
  · exact h y hy

/-- ABORT clears a write side that has nothing in transfer. -/
theorem abortPool_of_write (hdir : s.spm.direction = .writeOpen) (hflight : s.tte.inFlight = none)
    (hstill : s.mc.state ≠ .repositioning) (h : ∀ x ∈ s.spm.slots, x.state ≠ .verified) :
    s.abortPool = { s with rg := { s.rg with stopKind := .none }, spm := s.spm.cleared } := by
  have hcleared : s.abortWrite = { s with spm := s.spm.cleared } := by
    unfold State.abortWrite
    rw [hflight]
    exact clearWrite_of_unverified h
  unfold State.abortPool
  rw [hdir]
  dsimp only
  rw [hcleared]
  exact if_neg hstill

theorem abortSettled_of_open (hdir : s.spm.direction = .writeOpen) : s.abortSettled = false := by
  unfold State.abortSettled
  rw [hdir]
  rfl

/-- Nothing is left for ABORT to wait for. -/
theorem abortSettled_of_none (hdir : s.spm.direction = .none) (hclear : s.spm.clearing = false) (hjob : s.mc.job = none)
    (hue : s.ue.state = .idle ∨ s.ue.state = .done) : s.abortSettled = true := by
  unfold State.abortSettled
  rw [hdir, hclear, hjob]
  rcases hue with hue | hue <;> rw [hue] <;> rfl

theorem abortDelivery_of_none (hcmd : s.ue.cmd = none) : s.abortDelivery = s := by
  unfold State.abortDelivery
  rw [hcmd]
  exact if_neg nofun

/-- What the end of a read session leaves of what an ABORT looks at. -/
theorem leaveRead_frame (s : State) :
    s.leaveRead.mc = s.mc ∧ s.leaveRead.cml = s.cml ∧ s.leaveRead.ue = s.ue ∧ s.leaveRead.spm.clearing = s.spm.clearing
      ∧ s.leaveRead.spm.direction = .none ∧ s.leaveRead.tte.read = none := by
  have hframe : s.abandonReception.mc = s.mc ∧ s.abandonReception.cml = s.cml ∧ s.abandonReception.ue = s.ue
      ∧ s.abandonReception.spm.clearing = s.spm.clearing := by
    unfold State.abandonReception
    split <;> exact ⟨rfl, rfl, rfl, rfl⟩
  obtain ⟨hmc, hcml, hue, hclear⟩ := hframe
  rw [← hmc, ← hcml, ← hue, ← hclear]
  unfold State.leaveRead State.clearRead
  generalize s.abandonReception = e
  simp [State.onRg, State.onSpm, State.onTte, State.freeAll]

/-- In a read session every slot is FREE or of the read side, so that all are FREE after it (R19, R33). -/
theorem leaveRead_free (hi : s.Inv) (hdir : s.spm.direction = .readOpen) : ∀ x ∈ s.leaveRead.spm.slots, x.state = .free := by
  have hbelongs : ∀ x ∈ s.abandonReception.spm.slots, x.state.belongs .readOpen = true := by
    obtain ⟨-, -, -, -, -, -, hfits, -⟩ := State.abandonReception_inv s hi
    rw [State.abandonReception_direction, hdir] at hfits
    exact hfits
  intro x hx
  obtain ⟨y, hy, rfl⟩ := List.mem_map.1 (show x ∈ s.abandonReception.spm.slots.map
    (fun x => if (x.state.readSide && (true || x.state != .delivering)) = true then Slot.empty else x) from hx)
  have hfree : y.state.readSide = false → y.state = .free := by
    have := hbelongs y hy
    revert this
    cases y.state <;> decide
  by_cases hread : y.state.readSide = true
  · rw [hread]
    rfl
  · rw [Bool.not_eq_true] at hread
    rw [hread]
    exact hfree hread

/-- With no session, no motion command and no queued command ABORT finds nothing to stop. -/
theorem abort_of_none (hdir : s.spm.direction = .none) (hstill : s.mc.state ≠ .repositioning) (hjob : s.mc.job = none)
    (hop : s.cml.op = none) (hdq : s.ci.dataQueue = []) (hmq : s.ci.motionQueue = []) :
    s.abortPool.abortJob.abortQueues = s := by
  rw [abortPool_of_none hdir hstill, abortJob_of_none hjob, abortQueues_of_idle hop hdq hmq]

/-- The state as ABORT leaves a write session that it clears. -/
def State.writeCleared (s : State) : State := { s with rg := { s.rg with stopKind := .none }, spm := s.spm.cleared }

section
variable (hdir : s.spm.direction = .writeOpen) (hflight : s.tte.inFlight = none) (hstill : s.mc.state ≠ .repositioning)
  (hver : ∀ x ∈ s.spm.slots, x.state ≠ .verified) (hjob : s.mc.job = none) (hop : s.cml.op = none)
include hdir hflight hstill hver hjob hop

theorem abort_of_write (hdq : s.ci.dataQueue = []) (hmq : s.ci.motionQueue = []) :
    s.abortPool.abortJob.abortQueues = s.writeCleared := by
  have hpool : s.abortPool = s.writeCleared := abortPool_of_write hdir hflight hstill hver
  rw [hpool, abortJob_of_none (s := s.writeCleared) hjob, abortQueues_of_idle (s := s.writeCleared) hop hdq hmq]

/-- A FLUSH that runs holds the head until the last write-side slot is freed (R78). -/
theorem abort_of_flush {f : Taken} (hdq : s.ci.dataQueue = [f.id]) (hmq : s.ci.motionQueue = []) (hf : s.taken f.id = some f)
    (hcmd : f.cmd = .flush) (hstage : f.stage = .running) (hawait : ∃ x ∈ s.spm.slots, x.state = .awaitVerify) :
    s.abortPool.abortJob.abortQueues = s.writeCleared.setStage f.id .aborted := by
  have hpool : s.abortPool = s.writeCleared := abortPool_of_write hdir hflight hstill hver
  have hwaits : s.spm.cleared.writeEmpty = false := by
    obtain ⟨x, hx, hstate⟩ := hawait
    refine Bool.eq_false_iff.mpr fun hall => ?_
    have hkept : (if x.dropsAtOnce then Slot.empty else x) = x := if_neg (by rw [Slot.dropsAtOnce, hstate]; decide)
    have hmem : x ∈ s.spm.cleared.slots := List.mem_map.2 ⟨x, hx, hkept⟩
    have := List.all_eq_true.1 hall x hmem
    rw [hstate] at this
    exact absurd this (by decide)
  have hholds : s.writeCleared.flushHolds f.id = true := by
    unfold State.flushHolds
    rw [show s.writeCleared.spm.writeEmpty = false from hwaits, show s.writeCleared.taken f.id = some f from hf]
    simp [hcmd, hstage]
  have hcut : s.writeCleared.ci.dataQueue.foldl State.cutData s.writeCleared = s.writeCleared.setStage f.id .aborted := by
    rw [show s.writeCleared.ci.dataQueue = [f.id] from hdq]
    exact if_pos hholds
  rw [hpool, abortJob_of_none (s := s.writeCleared) hjob, abortQueues_of_data (s := s.writeCleared) hop (by rw [hcut]; exact hmq),
    hcut]

end

/-- A read session is left at once where no delivery is outstanding (R102). -/
theorem abort_of_read (hdir : s.spm.direction = .readOpen) (hcmd : s.ue.cmd = none) (hready : s.mc.state = .ready)
    (hjob : s.mc.job = none) (hop : s.cml.op = none) (hdq : s.ci.dataQueue = []) (hmq : s.ci.motionQueue = []) :
    s.abortPool.abortJob.abortQueues = s.leaveRead := by
  obtain ⟨hmc, hcml, -⟩ := leaveRead_frame s
  have hci : s.leaveRead.ci = s.ci := leaveRead_ci s
  have hstill : s.leaveRead.stopStreaming = s.leaveRead := by
    unfold State.stopStreaming State.stopReposition
    rw [hmc, hready]
    rfl
  have hpool : s.abortPool = s.leaveRead := by
    unfold State.abortPool
    rw [hdir]
    dsimp only
    rw [abortDelivery_of_none hcmd, hstill]
  rw [hpool, abortJob_of_none (by rw [hmc]; exact hjob),
    abortQueues_of_idle (by rw [hcml]; exact hop) (by rw [hci]; exact hdq) (by rw [hci]; exact hmq)]

/-- ABORT on the state that it joins. -/
theorem runAbort_join {flags : BitVec 8} (tag : BitVec 16) (h : s.Takes flags) (hp : s.pe.intake = []) {t : State}
    (ht : (State.takenAbort { s with pe := s.pe.discard [] } tag flags).abortPool.abortJob.abortQueues = t) :
    (s.join (s.entry tag flags .abort)).runAbort s.ci.nextId = if t.abortSettled then t.completeAborts else t := by
  have hpack : (s.takenAbort tag flags).abortPack = State.takenAbort { s with pe := s.pe.discard [] } tag flags :=
    abortPack_of_empty hp
  rw [← ht, ← hpack]
  unfold State.runAbort
  rw [running_configuration tag s flags h.1 rfl]
  rfl

end

/-- A FLUSH that waits for the last write-side slot under ABORT (R78). -/
theorem headFlush_aborted {s : State} {f : Taken} (hf : s.taken f.id = some f) (hcmd : f.cmd = .flush)
    (hstage : f.stage = .aborted) :
    s.headFlush f =
      if s.spm.writeEmpty then some (s.complete f.id .aborted (dv 4 s.endOfData.1 ++ du 4) (dv 4 s.endOfData.2 ++ du 4))
      else none := by
  have hend : s.abortData f.id = s.complete f.id .aborted (dv 4 s.endOfData.1 ++ du 4) (dv 4 s.endOfData.2 ++ du 4) := by
    unfold State.abortData
    rw [hf, Option.map_some, hcmd]
    rfl
  unfold State.headFlush
  rw [if_pos hstage, hend]

theorem leaveWrite_leaves (s : State) : s.leaveWrite.spm.direction = .none ∧ s.leaveWrite.tte.writePoint = none := by
  unfold State.leaveWrite State.positionAtEnd
  dsimp only
  split <;> exact ⟨rfl, rfl⟩

/-- Settles O50: each command by the direction and what the session holds, and the ends of both sessions. -/
theorem flushCloseAbort : Obligations.FlushCloseAbort := by
  intro s tag flags h
  have habort (hp : s.pe.intake = []) {t u : State}
      (ht : (State.takenAbort { s with pe := s.pe.discard [] } tag flags).abortPool.abortJob.abortQueues = t)
      (hu : (if t.abortSettled then t.completeAborts else t) = u) :
      exec (.abort tag flags) s = Host.Outcome.next u.finish :=
    next_congr ((command_runs tag h rfl (by simp)).trans (congrArg State.finish ((runAbort_join tag h hp ht).trans hu)))
  refine ⟨fun hq hp hdir => flush_runs tag h hq hp ?_, fun hq hp hdir hclear hfill hempty => flush_runs tag h hq hp ?_,
    fun i hq hp hdir hfill hopen hsome => flush_runs tag h hq hp ?_,
    next_congr ((command_runs tag h rfl (by simp)).trans (congrArg State.finish (runClose_join tag h))),
    fun hp hdir hclear hjob hop hstill hdq hmq hab hue => ?_, fun hp hdir hjob hop hflight hstill hdq hmq hver => ?_,
    fun f hp hdir hjob hop hflight hstill hdq hf hcmd hstage hmq hver hawait => ?_,
    fun f hp hhead hf hcmd hstage hbar hbad => ?_,
    fun hp hdir hjob hop hstill hclear hdq hmq hab hnocmd hue => ?_, fun hclear hdir hempty hflight hverify => ?_, ?_⟩
  · rw [headFlush_join]
    rcases hdir with hdir | hdir <;> rw [hdir] <;> exact head_refused tag h _
  · rw [headFlush_join, hdir]
    exact flush_empty tag h hfill hempty
  · rw [headFlush_join, hdir]
    exact flush_seals tag h hfill hopen hsome
  · have hrun := abort_of_none (s := State.takenAbort { s with pe := s.pe.discard [] } tag flags) hdir hstill hjob hop hdq hmq
    exact habort hp hrun ((if_pos (abortSettled_of_none (s := State.takenAbort { s with pe := s.pe.discard [] } tag flags)
      hdir hclear hjob hue)).trans (completeAborts_taken { s with pe := s.pe.discard [] } tag flags h.1 hab))
  · intro goes
    have hrun := abort_of_write (s := State.takenAbort { s with pe := s.pe.discard [] } tag flags) hdir hflight hstill hver hjob
      hop hdq hmq
    exact habort hp hrun (if_neg (by
      rw [abortSettled_of_open (s := State.writeCleared (State.takenAbort { s with pe := s.pe.discard [] } tag flags)) hdir]
      exact Bool.false_ne_true))
  · intro goes
    have htaken : (State.takenAbort { s with pe := s.pe.discard [] } tag flags).taken f.id = some f := by
      show (s.ci.outstanding ++ [_]).find? _ = some f
      rw [List.find?_append, show s.ci.outstanding.find? (·.id == f.id) = some f from hf]
      rfl
    have hrun := abort_of_flush (s := State.takenAbort { s with pe := s.pe.discard [] } tag flags) hdir hflight hstill hver hjob
      hop hdq hmq htaken hcmd hstage hawait
    exact habort hp hrun (if_neg (by
      rw [abortSettled_of_open (s := (State.writeCleared (State.takenAbort { s with pe := s.pe.discard [] } tag flags)).setStage
        f.id .aborted) hdir]
      exact Bool.false_ne_true))
  · have hserve := headFlush_aborted hf hcmd hstage
    unfold State.serveData
    rw [hhead, Option.bind_some, hf]
    dsimp only
    rw [hcmd, hp, show s.barrierClear f = true by simp [State.barrierClear, hbar],
      show f.spoiled = false by simp [Taken.spoiled, hbad, hcmd]]
    exact hserve
  · have hrun := abort_of_read (s := State.takenAbort { s with pe := s.pe.discard [] } tag flags) hdir hnocmd hstill hjob hop hdq
      hmq
    obtain ⟨hmc, -, hsame, hkept, hnone, -⟩ := leaveRead_frame { s with pe := s.pe.discard [] }
    have hci : ({ s with pe := s.pe.discard [] } : State).leaveRead.ci = s.ci := leaveRead_ci _
    have hleft := takenAbort_commutes { s with pe := s.pe.discard [] } tag flags leaveRead_onCi hci
    refine habort hp (hrun.trans hleft) ((if_pos ?_).trans (completeAborts_taken _ tag flags ?_ ?_))
    · exact abortSettled_of_none (s := ({ s with pe := s.pe.discard [] } : State).leaveRead.takenAbort tag flags) hnone
        (hkept.trans hclear) ((congrArg Mc.job hmc).trans hjob)
        (hue.imp (congrArg Ue.state hsame).trans (congrArg Ue.state hsame).trans)
    · rw [hci]
      exact h.1
    · rw [hci]
      exact hab
  · have hleft := leaveWrite_leaves s.abortPack
    refine ⟨if_pos ⟨hclear, hdir, hempty, ?_⟩, hleft.1, hleft.2⟩
    unfold State.writingDone
    rw [hflight, hverify]
    rfl
  · obtain ⟨-, -, -, -, hnone, hread⟩ := leaveRead_frame s
    exact ⟨hnone, hread, leaveRead_free⟩

end Sys2Proof.Machine
end

section
/-! Starts, repositions, turnarounds and stops (R81, R110 to R115, R120, R121, R125, R134): O44 and O45. -/

namespace Sys2Proof.Machine

/-! ### Starts (R110 to R114) -/

/-- The short-run penalty applies (R113). -/
def Rg.PaysPenalty (g : Rg) : Prop := g.stopKind ≠ .none ∧ 0 < g.level ∧ ∃ k, g.runLength = some k ∧ k < 32

theorem startRun_of_penalty {g : Rg} (h : g.PaysPenalty) :
    g.startRun = { g with
      level := g.level - 1, target := none, stopKind := .none, runLength := some 0, readStart := .threshold, flushed := false
      held := none, newRun := false } := by
  obtain ⟨hkind, hlevel, k, hrun, hshort⟩ := h
  unfold Rg.startRun
  rw [hrun]
  dsimp only
  rw [if_pos ⟨hkind, decide_eq_true hshort, hlevel⟩]

theorem startRun_of_none {g : Rg} (h : ¬g.PaysPenalty) :
    g.startRun = { g with
      stopKind := .none, runLength := some 0, readStart := .threshold, flushed := false, held := none, newRun := false } := by
  unfold Rg.startRun
  cases hrun : g.runLength with
  | none =>
    dsimp only
    rw [if_neg fun hall => Bool.false_ne_true hall.2.1]
  | some k =>
    dsimp only
    rw [if_neg fun hall => h ⟨hall.1, hall.2.2, k, hrun, of_decide_eq_true hall.2.1⟩]

/-- A start that only the threshold is waited for asks for no new run. -/
theorem await_threshold (g : Rg) (kind : StopKind) :
    g.await kind .threshold = { g with stopKind := kind, readStart := .threshold, held := none } := by
  have hnew : (g.newRun || ReadAsk.threshold == .asked) = g.newRun := Bool.or_false _
  exact congrArg (fun b => { g with stopKind := kind, readStart := .threshold, held := none, newRun := b }) hnew

section
variable {s : State} {r : ReadState}

theorem retrying_of_some (hread : s.tte.read = some r) : s.retrying = r.inRetry := by
  unfold State.retrying
  rw [hread]
  rfl

theorem readSpeed_of_some (hread : s.tte.read = some r) :
    s.readSpeed = Config.levelSpeed (if r.inRetry then 0 else s.rg.due) := by
  unfold State.readSpeed
  rw [hread]

/-- Streaming begins at the read point, with a new run but in a retry that goes on. -/
theorem startRead_eq (hread : s.tte.read = some r) (p : TapePos) {g : Rg}
    (hg : g = if r.inRetry = true ∧ s.rg.newRun = false then
        { s.rg with stopKind := .none, readStart := .threshold, held := none } else s.rg.startRun) :
    s.startRead p = { s with rg := g, mc := s.mc.stream p (Config.levelSpeed (if r.inRetry then 0 else g.level)) } := by
  have hchosen : (if (s.retrying && !s.rg.newRun) = true then s.rg.await .none .threshold else s.rg.startRun) = g := by
    rw [hg, retrying_of_some hread, await_threshold]
    exact if_congr (by rw [Bool.and_eq_true, Bool.not_eq_true']) rfl rfl
  have hheld : g.held = none := by
    rw [hg]
    split <;> rfl
  have hdue : g.due = g.level := by
    unfold Rg.due
    rw [hheld]
    rfl
  have hspeed := readSpeed_of_some (s := { s with rg := g }) hread
  rw [show ({ s with rg := g } : State).rg.due = g.level from hdue] at hspeed
  unfold State.startRead
  rw [← hspeed]
  exact congrArg (fun g => State.onMc { s with rg := g } fun m => m.stream p (State.readSpeed { s with rg := g })) hchosen

end

/-- Settles O44: the conditions of each start, and the new run it begins. -/
theorem startsAndRepositions : Obligations.StartsAndRepositions := by
  refine ⟨fun s p hpoint harm hready hstart => ?_, fun s r p hread hpoint hgoing hdir hready hjob hholds => ?_,
    fun g => ⟨rfl, rfl, ?_, fun h => ?_, fun h => ?_⟩, fun s hstate => if_pos hstate⟩
  · show execGovernorStart s = _
    unfold execGovernorStart
    rw [hpoint]
    exact if_pos ⟨harm, hready, hstart⟩
  · intro g
    show execReadAheadResume s = _
    unfold execReadAheadResume
    rw [hread, Option.bind_some, hpoint]
    refine (if_pos ⟨hgoing, hdir, hready, hjob, hholds⟩).trans ?_
    exact next_congr (congrArg State.finish (startRead_eq hread p rfl))
  · by_cases h : g.PaysPenalty
    · rw [startRun_of_penalty h]
    · rw [startRun_of_none h]
  · rw [startRun_of_penalty h]
    exact ⟨rfl, rfl⟩
  · rw [startRun_of_none h]
    exact ⟨rfl, rfl⟩

/-! ### Turnarounds (R121) -/

/-- The tape on the next pass, at its position 0. -/
def Mc.turnedFrom (m : Mc) (q : TapePos) : Mc :=
  { m with pos := some q.nextPass, travel := passTravel (q.pass + 1), runIn := true, targets := passTargets (q.pass + 1) }

theorem onNewPass_of_some {m : Mc} {q : TapePos} (hpos : m.pos = some q) : m.onNewPass = m.turnedFrom q := by
  unfold Mc.onNewPass
  rw [hpos]
  rfl

/-- A new pass begins at its offset 0. -/
theorem nextPass_offset (q : TapePos) : q.nextPass.offset = 0 := by
  unfold TapePos.offset TapePos.nextPass passStart
  dsimp only
  split
  · rfl
  · exact Nat.sub_self _

section
variable {s : State} {q : TapePos}

/-- The state on the next pass, before what goes on there. -/
def State.onPass (s : State) (q : TapePos) : State := { s with mc := s.mc.turnedFrom q }

theorem turnaroundDone_runs (hstate : s.mc.state = .turnaround) :
    exec .turnaroundDone s = Host.Outcome.next s.turned.finish := if_pos hstate

theorem onPass_eq (hrun : s.tte.runOn = none) (hpos : s.mc.pos = some q) :
    (if s.tte.runOn.isSome then s.endRunOn else s).onMc Mc.onNewPass = s.onPass q := by
  rw [hrun]
  exact congrArg (fun m => { s with mc := m }) (onNewPass_of_some hpos)

/-- With no motion command and no reading a write session that still arms goes on, else the tape stands. -/
theorem turned_writing (hrun : s.tte.runOn = none) (hpos : s.mc.pos = some q) (hjob : s.mc.job = none)
    (hread : s.tte.read = none) :
    s.turned = if (s.arming && s.mc.thermal == .normal) = true then (s.onPass q).writeOn
      else (s.onPass q).onMc fun m => m.halt .ready := by
  unfold State.turned
  rw [onPass_eq hrun hpos]
  dsimp only
  rw [show (s.onPass q).mc.job = none from hjob]
  dsimp only
  rw [show (s.onPass q).tte.read = none from hread]
  rfl

theorem turned_reading {r : ReadState} (hrun : s.tte.runOn = none) (hpos : s.mc.pos = some q) (hjob : s.mc.job = none)
    (hread : s.tte.read = some r) : s.turned = (s.onPass q).readOn r := by
  unfold State.turned
  rw [onPass_eq hrun hpos]
  dsimp only
  rw [show (s.onPass q).mc.job = none from hjob]
  dsimp only
  rw [show (s.onPass q).tte.read = some r from hread]

theorem turned_searching {j : Job} (hrun : s.tte.runOn = none) (hpos : s.mc.pos = some q) (hjob : s.mc.job = some j)
    (hstage : j.stage = .searching) : s.turned = (s.onPass q).onMc fun m => m.readHeaders q.nextPass := by
  unfold State.turned
  rw [onPass_eq hrun hpos]
  dsimp only
  rw [show (s.onPass q).mc.job = some j from hjob]
  dsimp only
  rw [if_neg (by rw [hstage]; decide), if_pos hstage]
  rfl

theorem writeOn_of_some {p : TapePos} (hpoint : s.tte.writePoint = some p) :
    s.writeOn = s.onMc fun m => ({ m with
      state := .streaming, speed := Config.levelSpeed s.rg.level, atSpeed := false, lastMark := none } : Mc).loadStart p := by
  unfold State.writeOn
  rw [hpoint]

theorem readOn_of_some {r : ReadState} {p : TapePos} (hread : s.tte.read = some r) (hpoint : r.point = some p)
    (hgoing : r.going = true) (hthermal : s.mc.thermal = .normal) :
    s.readOn r = s.onMc fun m => ({ m with
      state := .streaming, atSpeed := false, lastMark := none
      speed := Config.levelSpeed (if r.inRetry then 0 else s.rg.held.getD s.rg.level) } : Mc).loadStart p := by
  unfold State.readOn
  rw [hpoint, hgoing, hthermal, readSpeed_of_some hread]
  rfl

/-! ### Stops (R115, R120) -/

/-- A motion command that ends outside a read session. -/
theorem endJob_of_other (j : Job) (f : Finish) (hdir : s.spm.direction ≠ .readOpen) :
    s.endJob j f = State.complete
      { s with mc := { s.mc.halt .ready with
          job := none, targets := s.mc.targets.filter fun k => k.purpose == .passEnd || k.purpose == .earlyWarning
          dsPos := match f.pos with | some p => some p | none => s.mc.dsPos } }
      j.id f.result f.detailA f.detailB := by
  have hcompleted : ∀ e : State, e.spm.direction ≠ .readOpen →
      (match (e.complete j.id f.result f.detailA f.detailB).spm.direction,
          (e.complete j.id f.result f.detailA f.detailB).mc.dsPos with
        | .readOpen, some p => ((e.complete j.id f.result f.detailA f.detailB).formRead p).beginRead
        | _, _ => e.complete j.id f.result f.detailA f.detailB) = e.complete j.id f.result f.detailA f.detailB := by
    intro e he
    rw [State.complete_spm]
    cases hd : e.spm.direction with
    | readOpen => exact absurd hd he
    | none => rfl
    | writeOpen => rfl
    | writeFailed => rfl
  exact hcompleted { s with mc := { s.mc.halt .ready with
    job := none, targets := s.mc.targets.filter fun k => k.purpose == .passEnd || k.purpose == .earlyWarning
    dsPos := match f.pos with | some p => some p | none => s.mc.dsPos } } hdir

theorem tapeStopped_runs (hslow : s.mc.slowing = true) : exec .tapeStopped s = Host.Outcome.next s.stopped.finish :=
  if_pos hslow

end

/-- Settles O45: what goes on at the next pass, and what a tape that has stopped leaves. -/
theorem turnsAndStops : Obligations.TurnsAndStops := by
  refine ⟨fun s q hstate hrun hpos => ?_, fun s hslow hstate => ?_,
    fun s j f hslow hstream hrepos hresume hjob hstage hfinish hdir => ?_⟩
  · intro onPass
    refine ⟨fun p hjob hread hpoint harm hthermal => ?_, fun hjob hread harm => ?_,
      fun r p hjob hread hpoint hgoing hthermal => ?_, fun j hjob hstage => ?_⟩
    · rw [turnaroundDone_runs hstate, turned_writing hrun hpos hjob hread, if_pos (by rw [harm, hthermal]; rfl)]
      exact next_congr (congrArg State.finish (writeOn_of_some (s := s.onPass q) hpoint))
    · rw [turnaroundDone_runs hstate, turned_writing hrun hpos hjob hread, if_neg (by rw [harm]; exact Bool.false_ne_true)]
      rfl
    · rw [turnaroundDone_runs hstate, turned_reading hrun hpos hjob hread]
      exact next_congr (congrArg State.finish (readOn_of_some (s := s.onPass q) hread hpoint hgoing hthermal))
    · rw [turnaroundDone_runs hstate, turned_searching hrun hpos hjob hstage]
      have hoffset : (q.nextPass.offset == 0) = true := beq_iff_eq.2 (nextPass_offset q)
      exact next_congr (congrArg (fun b => State.finish { s with mc := { onPass with
        state := .moving, speed := Config.levelSpeed 0, atSpeed := false, lastMark := none, slowing := false, resume := false
        runIn := b } }) hoffset)
  · rw [tapeStopped_runs hslow]
    exact next_congr (congrArg State.finish (if_pos hstate))
  · have hended : s.stopped = s.endJob j f := by
      unfold State.stopped
      rw [if_neg (not_or.2 ⟨hstream, hrepos⟩), hjob, hresume]
      show s.jobStopped j = _
      unfold State.jobStopped
      rw [hstage, hfinish]
      rfl
    rw [tapeStopped_runs hslow, hended]
    exact next_congr (congrArg State.finish (endJob_of_other j f hdir))

end Sys2Proof.Machine
end

section
/-! Threading and unthreading, tension and speed faults (R114, R117 to R119, R122 to R124, R134, R168): O39, O40 and O42. -/

namespace Sys2Proof.Machine

/-! ### Threading (R117, R134, R168) -/

section
variable {s : State} {t : Thread}

theorem servoLock_runs (hstate : s.mc.state = .threading) (hthread : s.mc.thread = some t) :
    exec .servoLock s
      = Host.Outcome.next (match t.kind with | .data => s.threaded | .cleaning => s.threadedCleaning).finish := by
  show execServoLock s = _
  unfold execServoLock
  rw [hstate, hthread]
  rfl

theorem leaderNotCaptured_runs (tape : Bool) (hstate : s.mc.state = .threading) (hthread : s.mc.thread = some t) :
    exec (.leaderNotCaptured tape) s = Host.Outcome.next (s.attemptFailed t tape 0).finish := by
  show execLeaderNotCaptured tape s = _
  unfold execLeaderNotCaptured
  rw [hstate, hthread]
  rfl

theorem threadTimeout_runs (tape : Bool) (hstate : s.mc.state = .threading) (hthread : s.mc.thread = some t) :
    exec (.threadTimeout tape) s = Host.Outcome.next ((s.elapse t.timer).attemptFailed t tape 1).finish := by
  show execThreadTimeout tape s = _
  unfold execThreadTimeout
  rw [hstate, hthread]
  rfl

/-- A first attempt that fails is repeated. -/
theorem attemptFailed_first (tape : Bool) (why : Nat) (hfirst : t.attempt = 1) :
    s.attemptFailed t tape why = s.onMc fun m => m.attempt 2 t.kind := if_pos hfirst

/-- A second attempt that fails with the leader home. -/
theorem attemptFailed_home {j : Job} (why : Nat) (hsecond : t.attempt ≠ 1) (hjob : s.mc.job = some j) :
    s.attemptFailed t false why =
      State.complete
        { s with
          pins := { s.pins with tapeInPath := false }, hm := { s.hm with cleaning := .none }
          mc := { s.mc.halt .present with loopOn := false, tensionUp := false, thread := none, job := none, tensionUpRun := 0 } }
        j.id .threadFailed noDetail (dv 1 why ++ du 7) := by
  unfold State.attemptFailed
  rw [if_neg hsecond, hjob]
  rfl

/-- A second attempt that fails with tape in the path. -/
theorem attemptFailed_out (why : Nat) (hsecond : t.attempt ≠ 1) :
    s.attemptFailed t true why =
      ({ s with pins := { s.pins with tapeInPath := true } } : State).enterFault 2 .threadFailed (dv 1 why ++ du 7) :=
  if_neg hsecond

/-- The load count is raised in the counters alone. -/
theorem raiseLoads_condition (s : State) : s.raiseLoads.cml.condition = s.cml.condition := by
  show (State.raiseLoads s).cml.condition = _
  unfold State.raiseLoads State.onCml
  dsimp only
  split
  · rfl
  · split <;> rfl

end

theorem beginUnthread_of_none {s : State} (hjob : s.mc.job = none) :
    s.beginUnthread = { s with
      mc := { s.mc.halt .unthreading with targets := [], tensionUp := false, recovery := none, loopOn := true } } := by
  simp only [State.beginUnthread, State.onMc, Mc.halt, hjob]

theorem beginUnthread_of_some {s : State} {j : Job} (hjob : s.mc.job = some j) :
    s.beginUnthread = { s with
      mc := { s.mc.halt .unthreading with targets := [], tensionUp := false, recovery := none, loopOn := true
                                          job := some { j with stage := .unthreading } } } := by
  simp only [State.beginUnthread, State.onMc, Mc.halt, hjob, State.setJob]

theorem threadedCleaning_of_none {s : State} (hjob : s.mc.job = none) :
    s.threadedCleaning = State.beginUnthread ((s.onPins fun p => { p with tapeInPath := true }).onMc fun m =>
      { m.halt .cleaning with pos := some { pass := 0, mark := 0 }, speedFaults := 0, tensionFaults := 0, offRun := 0, inRun := 0,
                              thread := none }) := by
  unfold State.threadedCleaning
  rw [hjob]

theorem note_cml (s : State) (k : NoteKind) (a b : Detail) : (s.note k a b).cml = s.cml := by
  unfold State.note State.tryRecord State.askRing
  split
  · rfl
  · split <;> rfl

theorem enterHealth_cml (s : State) (h : Health) (cause : Nat) : (s.enterHealth h cause).cml = s.cml := by
  unfold State.enterHealth
  cases h <;> dsimp only <;> split <;> simp [State.onHm, State.onPins, State.onRg, note_cml]

/-- Settles O39: servo lock by the cartridge's kind, and an attempt that fails by its number and the tape path. -/
theorem threadingEnds : Obligations.ThreadingEnds := by
  refine ⟨fun s t hstate hthread hjob hkind => ?_, fun s t j tape hstate hthread hjob => ?_⟩
  · rw [servoLock_runs hstate hthread, hkind]
    exact next_congr (congrArg State.finish ((threadedCleaning_of_none hjob).trans (beginUnthread_of_none hjob)))
  · intro late again home out
    refine ⟨fun hkind => ?_, fun hkind => ?_, fun hfirst => ⟨?_, ?_⟩, fun hsecond htape => ⟨?_, ?_⟩,
      fun hsecond htape => ⟨?_, ?_⟩⟩
    · intro r
      rw [servoLock_runs hstate hthread, hkind]
      refine next_congr (congrArg State.finish ?_)
      have hcondition : r.cml.condition = s.cml.condition := raiseLoads_condition _
      unfold State.threaded
      rw [hjob, ← hcondition]
      rfl
    · rw [servoLock_runs hstate hthread, hkind]
      refine next_congr (congrArg State.finish ?_)
      unfold State.threadedCleaning
      rw [hjob]
      rfl
    · rw [leaderNotCaptured_runs tape hstate hthread, attemptFailed_first tape 0 hfirst]
      rfl
    · rw [threadTimeout_runs tape hstate hthread, attemptFailed_first tape 1 hfirst]
      rfl
    · rw [leaderNotCaptured_runs tape hstate hthread, htape, attemptFailed_home 0 hsecond hjob]
    · rw [threadTimeout_runs tape hstate hthread, htape, attemptFailed_home (s := late) 1 hsecond hjob]
      rfl
    · rw [leaderNotCaptured_runs tape hstate hthread, htape, attemptFailed_out 0 hsecond]
    · rw [threadTimeout_runs tape hstate hthread, htape, attemptFailed_out (s := late) 1 hsecond]
      rfl

/-! ### Unthreading and the slow recovery (R118, R119, R168) -/

/-- Settles O42: each end by the motion command that waits for it. -/
theorem unthreadingEnds : Obligations.UnthreadingEnds := by
  intro s e
  refine ⟨fun j hstate hjob hkind => ?_, fun j hstate hjob hkind => ?_, fun j hjob hstage => ?_, fun j n hjob hstage hn => ?_⟩
  · show execUnthreadDone s = _
    unfold execUnthreadDone State.ejected
    rw [if_pos hstate, hjob]
    dsimp only
    rw [if_neg hkind]
    rfl
  · have hcml : (State.enterHealth { e with hm := { s.hm with ci := 0, wear := 0, waiting := 0, cleaning := .none } } .good
        0).cml = s.cml := enterHealth_cml _ _ _
    show execUnthreadDone s = _
    unfold execUnthreadDone State.ejected
    rw [if_pos hstate, hjob]
    dsimp only
    rw [if_pos hkind]
    exact congrArg (fun c : Cml => Host.Outcome.next (State.finish (State.complete
      (State.enterHealth { e with hm := { s.hm with ci := 0, wear := 0, waiting := 0, cleaning := .none } } .good 0)
      j.id .cleaned (dv 2 ((c.counters.map (·.uses)).getD 0) ++ dv 2 j.ciBefore ++ du 4) noDetail))) hcml
  · show execLeaderHome s = _
    unfold execLeaderHome
    rw [hjob]
    dsimp only
    rw [if_pos hstage, beginUnthread_of_some hjob]
    rfl
  · intro l
    show execRecoveryTensionTimeout s = _
    unfold execRecoveryTensionTimeout
    rw [hjob, hn]
    exact if_pos hstage

/-! ### Tension (R119, R123, R124) -/

section
variable {s : State}

theorem tensionUp_runs (hloop : s.mc.loopOn = true) (hup : s.mc.tensionUp = false) (hrun : 16 ≤ s.mc.tensionUpRun)
    (hstate : s.mc.state ≠ .unthreading) : exec .tensionUp s = Host.Outcome.next (s.onMc Mc.tensionIsUp).finish :=
  if_pos ⟨hloop, hup, hrun, hstate⟩

/-- Outside a slow recovery that waits for it, tension up is all. -/
theorem tensionIsUp_of_other {m : Mc} (h : ∀ j, m.job = some j → j.stage ≠ .recoverTension) :
    m.tensionIsUp = { m with tensionUp := true, tensionFaults := 0 } := by
  unfold Mc.tensionIsUp
  cases hjob : m.job with
  | none => rfl
  | some j => exact if_neg (h j hjob)

/-- A slow recovery goes on to wind the tape. -/
theorem tensionIsUp_of_recovery {m : Mc} {j : Job} (hjob : m.job = some j) (hstage : j.stage = .recoverTension) :
    m.tensionIsUp =
      { m with tensionUp := true, tensionFaults := 0, job := some { j with stage := .recoverWind }, recovery := none
               travel := .reverse, speed := 20 } := by
  unfold Mc.tensionIsUp
  rw [hjob]
  exact if_pos hstage

theorem tensionFault_runs (hloop : s.mc.loopOn = true) (hup : s.mc.tensionUp = true) (hcount : 40 ≤ s.mc.tensionFaults) :
    exec .tensionFault s = match s.mc.job with
      | some j =>
        if j.stage = .recoverTension ∨ j.stage = .recoverWind then ((s.failRecovery j).faultNote 0).done
        else (s.enterFault 0 .motionFault noDetail).done
      | none => (s.enterFault 0 .motionFault noDetail).done :=
  if_pos ⟨hloop, hup, hcount⟩

/-! ### Speed faults (R68, R72, R87, R114, R122) -/

theorem speedFault_runs (hjudging : s.mc.judging = true) (hoff : 16 ≤ s.mc.offRun) :
    exec .speedFault s
      = Host.Outcome.next (if s.mc.speedFaults = 0 then s.firstSpeedFault else s.enterFault 1 .motionFault noDetail).finish :=
  if_pos ⟨hjudging, hoff⟩

/-- The state in which a first speed fault is counted. -/
def State.speedFaultCounted (s : State) : State := { s with mc := { s.mc with speedFaults := 1, offRun := 0, inRun := 0 } }

/-- The first speed fault of a writing tape: the transfer cut, then a reposition (R68, R114). -/
theorem firstSpeedFault_writing (hstate : s.mc.state = .streaming) (hread : s.tte.read = none) :
    s.firstSpeedFault = s.speedFaultCounted.cutWriting.reposition := by
  unfold State.firstSpeedFault
  rw [if_pos hstate, hread]
  rfl

/-- The first speed fault of a reading tape: it repositions and asks for a start (R87, R114). -/
theorem firstSpeedFault_reading {r : ReadState} (hstate : s.mc.state = .streaming) (hread : s.tte.read = some r) :
    s.firstSpeedFault = s.speedFaultCounted.readReposition .none .asked := by
  unfold State.firstSpeedFault
  rw [if_pos hstate, hread]
  rfl

theorem deadline_of_none (hverify : s.tte.verify = none) : s.deadline = s := by
  unfold State.deadline
  rw [hverify]

theorem deadline_of_some {v : Verify} (hverify : s.tte.verify = some v) : s.deadline = s.judgeFailed v.slot none := by
  unfold State.deadline
  rw [hverify]

theorem channelEnd_of_none (hflight : s.tte.inFlight = none) : s.channelEnd = s := by
  unfold State.channelEnd
  rw [hflight]

theorem channelEnd_of_some {f : InFlight} (hflight : s.tte.inFlight = some f) :
    s.channelEnd = (if f.transfer then s.deadline else s).returnInFlight := by
  unfold State.channelEnd
  rw [hflight]

/-- The report that is due when a stripe goes back counts as missing before, or after, with it (R68, R72). -/
theorem channelEnd_deadline {f : InFlight} {v : Verify} (hflight : s.tte.inFlight = some f) (hverify : s.tte.verify = some v) :
    s.channelEnd.deadline =
      if f.transfer then (s.judgeFailed v.slot none).returnInFlight else s.returnInFlight.judgeFailed v.slot none := by
  rw [channelEnd_of_some hflight]
  cases f.transfer with
  | true =>
    have hjudged : (s.judgeFailed v.slot none).returnInFlight.tte.verify = none :=
      congrArg (·.1) ((State.returnInFlight_checking _).trans (s.judgeFailed_checking v.slot none))
    exact (congrArg (fun e : State => e.returnInFlight.deadline) (deadline_of_some hverify)).trans (deadline_of_none hjudged)
  | false =>
    have hdue : s.returnInFlight.tte.verify = some v := (congrArg (·.1) (State.returnInFlight_checking s)).trans hverify
    exact deadline_of_some hdue

/-- The stripe in flight goes back to SEALED. -/
theorem returnInFlight_of_some {f : InFlight} (hflight : s.tte.inFlight = some f) (hslot : (s.slotAt f.slot).state = .writing) :
    s.returnInFlight =
      let u : State :=
        { s with
          spm := { s.spm with slots := s.spm.slots.modify f.slot fun y => { y with state := .sealed } }
          tte := { s.tte with inFlight := none, fifo := [] } }
      if s.spm.clearing then u.dropSlot f.slot else u := by
  have hat : (s.spm.slots[f.slot]?).any (·.state == .writing) = true := by
    unfold State.slotAt at hslot
    cases hx : s.spm.slots[f.slot]? with
    | none =>
      rw [hx] at hslot
      exact absurd hslot (by decide)
    | some x =>
      rw [hx] at hslot
      exact beq_iff_eq.2 hslot
  have hmoved : (s.onTte fun t => { t with inFlight := none, fifo := [] }).moveSlot f.slot .writing .sealed id
      = { s with
          spm := { s.spm with slots := s.spm.slots.modify f.slot fun y => { y with state := .sealed } }
          tte := { s.tte with inFlight := none, fifo := [] } } :=
    if_pos (Bool.and_eq_true_iff.2 ⟨hat, rfl⟩)
  unfold State.returnInFlight
  rw [hflight]
  dsimp only
  rw [hmoved]

/-- A start asked for begins a new run (R114). -/
theorem await_asked (r : Rg) (kind : StopKind) :
    r.await kind .asked = { r with stopKind := kind, readStart := .asked, held := none, newRun := true } := by
  have hnew : (r.newRun || true) = true := Bool.or_true _
  exact congrArg (fun b => { r with stopKind := kind, readStart := .asked, held := none, newRun := b }) hnew

theorem abandonReception_of_none {r : ReadState} (hread : s.tte.read = some r) (hnone : r.reception = none) :
    s.abandonReception = { s with tte := { s.tte with read := some { r with asked := false } } } := by
  have hmapped : (s.tte.read.map fun r => { r with asked := false }) = some { r with asked := false } :=
    congrArg (Option.map _) hread
  unfold State.abandonReception
  rw [show s.tte.read.bind (·.reception) = none by rw [hread]; exact hnone]
  exact congrArg (fun q => { s with tte := { s.tte with read := q } }) hmapped

theorem abandonReception_of_some {r : ReadState} {x : Reception} (hread : s.tte.read = some r) (hx : r.reception = some x) :
    s.abandonReception = { s with
      spm := { s.spm with slots := s.spm.slots.modify x.slot fun _ => Slot.empty }
      tte := { s.tte with fifo := [], read := some { r with reception := none, asked := false, point := some x.pos } } } := by
  have hmapped : (s.tte.read.map fun r => { r with reception := none, asked := false, point := some x.pos })
      = some { r with reception := none, asked := false, point := some x.pos } := congrArg (Option.map _) hread
  unfold State.abandonReception
  rw [show s.tte.read.bind (·.reception) = some x by rw [hread]; exact hx]
  exact congrArg
    (fun q => { s with
      spm := { s.spm with slots := s.spm.slots.modify x.slot fun _ => Slot.empty }, tte := { s.tte with fifo := [], read := q } })
    hmapped

/-- A reading tape repositions with the reception in flight abandoned, and asks for a start (R112, R114). -/
theorem readReposition_asked {e : State} (he : s.abandonReception = e) :
    s.readReposition .none .asked = { e with
      free := e.free + 1, mc := e.mc.reposition (Config.stopMarks e.free)
      rg := { e.rg with stopKind := .none, readStart := .asked, held := none, newRun := true } } := by
  unfold State.readReposition
  rw [he]
  exact congrArg (fun g => { e with free := e.free + 1, mc := e.mc.reposition (Config.stopMarks e.free), rg := g })
    (await_asked e.rg .none)

end

/-- Settles O40: tension by the slow recovery's stage, speed faults by their number and by what the tape does. -/
theorem tensionAndSpeedFaults : Obligations.TensionAndSpeedFaults := by
  intro s
  refine ⟨fun hloop hup hrun hstate hother => ?_, fun j hloop hup hrun hstate hjob hstage => ?_,
    fun hloop hup hcount hother => ?_, fun hstate => if_neg fun hall => hall.2.2.2 hstate,
    fun j hloop hup hcount hjob hstage => ?_, fun hjudging hoff hsecond => ?_, fun hjudging hoff hfirst hstate => ?_,
    fun hjudging hoff hfirst hstate => ?_⟩
  · rw [tensionUp_runs hloop hup hrun hstate]
    exact next_congr (congrArg (fun m => State.finish { s with mc := m }) (tensionIsUp_of_other hother))
  · rw [tensionUp_runs hloop hup hrun hstate]
    exact next_congr (congrArg (fun m => State.finish { s with mc := m }) (tensionIsUp_of_recovery hjob hstage))
  · rw [tensionFault_runs hloop hup hcount]
    cases hjob : s.mc.job with
    | none => rfl
    | some j => exact if_neg (not_or.2 (hother j hjob))
  · rw [tensionFault_runs hloop hup hcount, hjob]
    exact if_pos hstage
  · rw [speedFault_runs hjudging hoff, if_neg hsecond]
  · rw [speedFault_runs hjudging hoff, if_pos hfirst]
    exact next_congr (congrArg State.finish (if_neg hstate))
  · intro e asks back stops
    have hwriting (hread : s.tte.read = none) : exec .speedFault s = Host.Outcome.next (e.cutWriting.reposition).finish := by
      rw [speedFault_runs hjudging hoff, if_pos hfirst, firstSpeedFault_writing hstate hread]
      rfl
    have hreading {r : ReadState} (hread : s.tte.read = some r) :
        exec .speedFault s = Host.Outcome.next (e.readReposition .none .asked).finish := by
      rw [speedFault_runs hjudging hoff, if_pos hfirst, firstSpeedFault_reading hstate hread]
      rfl
    have hstops {u : State} (hu : e.channelEnd.deadline = u) : e.cutWriting.reposition = stops u :=
      congrArg (fun u : State => (u.onTte fun t => { t with runOn := none, underrun := false }).reposition) hu
    refine ⟨fun r hread hnone => ?_, fun r x hread hx => ?_, fun hread hflight hverify => ?_,
      fun f hread hflight hverify hslot => ?_, fun v hread hverify => ⟨fun hflight => ?_, fun f hflight => ?_⟩⟩
    · rw [hreading hread]
      refine next_congr (congrArg State.finish ?_)
      exact readReposition_asked (s := e) (abandonReception_of_none (s := e) hread hnone)
    · rw [hreading hread]
      exact next_congr (congrArg State.finish (readReposition_asked (s := e) (abandonReception_of_some (s := e) hread hx)))
    · rw [hwriting hread]
      exact next_congr (congrArg State.finish (hstops (by rw [channelEnd_of_none (s := e) hflight]; exact deadline_of_none hverify)))
    · intro u
      have hback : e.returnInFlight = if s.spm.clearing then u.dropSlot f.slot else u :=
        returnInFlight_of_some (s := e) hflight hslot
      refine ⟨hback, ?_⟩
      rw [hwriting hread]
      refine next_congr (congrArg State.finish (hstops ?_))
      have hdone : e.returnInFlight.tte.verify = none := (congrArg (·.1) (State.returnInFlight_checking e)).trans hverify
      rw [channelEnd_of_some (s := e) hflight, deadline_of_none (s := e) hverify, ite_self]
      exact deadline_of_none hdone
    · rw [hwriting hread]
      exact next_congr (congrArg State.finish (hstops (by rw [channelEnd_of_none (s := e) hflight]; exact deadline_of_some hverify)))
    · rw [hwriting hread]
      exact next_congr (congrArg State.finish (hstops (channelEnd_deadline (s := e) hflight hverify)))

end Sys2Proof.Machine
end

section
/-! PROOFS. Reports of a header search (R125 to R128, R132): settles O59. -/

namespace Sys2Proof.Machine

section
variable {s : State} {j : Job} {x : Search} {pass mark : Nat} {header : HeaderRead} {flags : List Byte}

/-- A report of a header search that moves is ruled. -/
theorem headerReport_ruled (blank : Bool) (header : HeaderRead) (flags : List Byte) (hj : s.mc.job = some j)
    (hx : j.search = some x) (hstage : j.stage = .searching) (hm : s.mc.state = .moving) (hslow : s.mc.slowing = false) :
    exec (.headerReport pass mark blank header flags) s
      = .next (s.ruleReport j x blank (headerSeen { pass := pass, mark := mark } header flags)).finish := by
  show execHeaderReport pass mark blank header flags s = _
  unfold execHeaderReport
  rw [hj, Option.bind_some, hx]
  exact if_pos ⟨hstage, hm, hslow⟩

/-- Every goal but the stale recovery's is ruled as a locate. -/
theorem ruleReport_of_ne_stale (s : State) (j : Job) (blank : Bool) (h : Option HeaderSeen) (hg : x.goal ≠ .stale) :
    s.ruleReport j x blank h = s.ruleHeader j x blank h := by
  unfold State.ruleReport
  cases hgoal : x.goal with
  | stale => exact absurd hgoal hg
  | stripe t => rfl
  | record r => rfl
  | marks low high wanted => rfl
  | endOfData => rfl

/-- A report that leaves the window closed leaves the search's window as it is. -/
theorem countWindow_closed (hw : x.window = none) : countWindow x.window = x.window := by
  rw [hw]; rfl

theorem searchOn_closed (s : State) (j : Job) (hw : x.window = none) :
    s.searchOn j x = s.setJob { j with search := some x } := by
  unfold State.searchOn
  rw [hw]

/-- A blank report with the window closed is counted, and the second in a row ends the search (R125). -/
theorem ruleHeader_blank (s : State) (j : Job) (h : Option HeaderSeen) (hw : x.window = none) :
    s.ruleHeader j x true h =
      if 2 ≤ x.blanks + 1 then s.searchEnded j { x with blanks := x.blanks + 1 }
      else s.setJob { j with search := some { x with blanks := x.blanks + 1 } } := by
  unfold State.ruleHeader
  rw [countWindow_closed hw, if_pos rfl]
  dsimp only
  exact congrArg (ite _ _) (searchOn_closed (x := { x with blanks := x.blanks + 1 }) s j hw)

/-- An unreadable header with the window closed ends a blank run (R125). -/
theorem ruleHeader_unreadable (s : State) (j : Job) (hw : x.window = none) :
    s.ruleHeader j x false none = s.setJob { j with search := some { x with blanks := 0 } } := by
  unfold State.ruleHeader
  rw [countWindow_closed hw, if_neg Bool.false_ne_true]
  exact searchOn_closed (x := { x with blanks := 0 }) s j hw

/-- The header that carries a locate's record ends the search there (R126). -/
theorem ruleHeader_record (s : State) (j : Job) {r : Nat} (k : HeaderSeen) (hg : x.goal = .record r) (hscan : x.scan = false)
    (hlow : k.first ≤ r) (hhigh : r < k.first + k.entries) :
    s.ruleHeader j x false (some k)
      = s.foundTarget j { x with blanks := 0, last := some k, floor := x.floor } k r := by
  unfold State.ruleHeader State.spanPastEnd
  rw [if_neg Bool.false_ne_true, hscan, hg]
  dsimp only
  rw [if_neg (by simp), if_neg Bool.false_ne_true]
  exact if_pos ⟨hlow, hhigh⟩

/-- A header at the place of a VALID directory's end of data, or past it, ends a search for filemarks. -/
theorem ruleHeader_pastEnd (s : State) (j : Job) {low wanted : Nat} {high : Option Nat} {d : Directory} (k : HeaderSeen)
    (hg : x.goal = .marks low high wanted) (hv : s.validDirectory = some d)
    (hpast : k.pos.reaches d.endPos = true) :
    s.ruleHeader j x false (some k) = s.searchEnded j { x with blanks := 0 } := by
  have hspan : s.spanPastEnd x k = true := by
    unfold State.spanPastEnd
    rw [hg, hv]
    exact hpast
  unfold State.ruleHeader
  dsimp only
  rw [if_neg Bool.false_ne_true, hspan]
  exact if_pos (Bool.or_true _)

theorem reaches_iff (p q : TapePos) :
    p.reaches q = true ↔ q.pass < p.pass ∨ (q.pass = p.pass ∧ q.offset ≤ p.offset) := by
  unfold TapePos.reaches TapePos.furtherThan
  simp only [Bool.or_eq_true, Bool.and_eq_true, decide_eq_true_eq, beq_iff_eq, Bool.not_eq_true', decide_eq_false_iff_not,
    Nat.not_lt, eq_comm (a := p.pass)]

/-- The end of a search for filemarks with its window closed decides the SPACE (R132). -/
theorem searchEnded_marks (s : State) (j : Job) {low wanted : Nat} {high : Option Nat} (hw : x.window = none)
    (hg : x.goal = .marks low high wanted) : s.searchEnded j x = s.spanDone j x true := by
  unfold State.searchEnded
  rw [hw, hg]
  rfl

/-- A SPACE forward by more filemarks than its search found goes to a VALID directory's end of data (R132). -/
theorem spanDone_short {plan : SpacePlan} {d : Directory} (hplan : j.space = some plan) (hf : plan.filemarks = true)
    (hpos : 0 < plan.count) (hv : s.validDirectory = some d) (hfew : x.found.length < plan.count.natAbs) :
    s.spanDone j x true =
      s.goPlace j { spaceFinish plan .endOfData x.found.length with pos := some d.endDs } d.endPos := by
  have hnone : x.found[plan.count.natAbs - 1]? = none := List.getElem?_eq_none (by omega)
  unfold State.spanDone
  rw [hplan]
  dsimp only
  rw [if_pos hf, if_pos hpos, List.nil_append]
  unfold State.decideMarks
  dsimp only
  rw [if_pos hpos, hnone, hv]

theorem headerSeen_of_invalid (pos : TapePos) (h : headerValidAt header.valid header.bytes pos = false) :
    headerSeen pos header flags = none :=
  if_neg (by rw [h]; exact Bool.false_ne_true)

end

/-- Settles O59: each report goes through R125's ruling with the window closed. -/
theorem headerReportsAreRuled : Obligations.HeaderReportsAreRuled := by
  unfold Obligations.HeaderReportsAreRuled
  intro s j x pass mark header flags hj hx hstage hm hslow hgoal hw
  have ruled (blank : Bool) :
      exec (.headerReport pass mark blank header flags) s
        = .next (s.ruleHeader j x blank (headerSeen { pass := pass, mark := mark } header flags)).finish :=
    (headerReport_ruled blank header flags hj hx hstage hm hslow).trans
      (next_congr (congrArg State.finish (ruleReport_of_ne_stale s j blank _ hgoal)))
  refine ⟨fun hblanks => ?first, fun hblanks => ?second, fun hinvalid => ?unreadable, ?found, ?pastEnd⟩
  case first =>
    refine (ruled true).trans (next_congr ?_)
    rw [ruleHeader_blank s j _ hw, hblanks]
    rfl
  case second =>
    refine (ruled true).trans (next_congr ?_)
    rw [ruleHeader_blank s j _ hw, if_pos (by omega)]
  case unreadable =>
    refine (ruled false).trans (next_congr ?_)
    rw [headerSeen_of_invalid _ hinvalid, ruleHeader_unreadable s j hw]
    rfl
  case found =>
    intro r hvalid hrec hscan hfinish h hlow hhigh
    refine (ruled false).trans (next_congr ?_)
    unfold headerSeen
    rw [if_pos hvalid]
    dsimp only
    rw [ruleHeader_record s j _ hrec hscan hlow hhigh]
    unfold State.foundTarget
    rw [hfinish]
    rfl
  case pastEnd =>
    intro d plan low high wanted hvalid hmarks hscan hv hpast hplan hf hpos hfew
    refine (ruled false).trans (next_congr ?_)
    unfold headerSeen
    rw [if_pos hvalid]
    dsimp only
    rw [ruleHeader_pastEnd s j _ hmarks hv ((reaches_iff _ _).mpr hpast),
      searchEnded_marks (x := { x with blanks := 0 }) s j hw hmarks,
      spanDone_short (x := { x with blanks := 0 }) hplan hf hpos hv hfew, goPlace_eq]
    rfl

end Sys2Proof.Machine
end

section
/-! The coder's bytes, the FILLING stripe and its seal timer (R18, R21 to R24, R34, R55), and a stripe armed, transferred,
terminated and judged (R65 to R72, R80): O51 and O54. -/

namespace Sys2Proof.Machine

/-! ### Slots that move between states -/

section
variable {s : State} {i : Nat}

/-- A slot that stands in a state other than FREE is one of the table. -/
theorem slot_of_slotAt {g : SlotState} (hstate : (s.slotAt i).state = g) (hg : g ≠ .free) :
    ∃ x, s.spm.slots[i]? = some x ∧ x.state = g := by
  unfold State.slotAt at hstate
  cases hx : s.spm.slots[i]? with
  | none =>
    rw [hx] at hstate
    exact absurd hstate.symm hg
  | some x =>
    rw [hx] at hstate
    exact ⟨x, rfl, hstate⟩

/-- A slot that moves between states, as a change of its record. -/
theorem moveSlot_modify {old new : SlotState} (f : Slot → Slot) (hstate : (s.slotAt i).state = old) (hold : old ≠ .free)
    (hnew : s.spm.admits new = true) :
    s.moveSlot i old new f
      = { s with spm := { s.spm with slots := s.spm.slots.modify i fun x => { f x with state := new } } } := by
  obtain ⟨x, hx, hs⟩ := slot_of_slotAt hstate hold
  exact if_pos (by rw [hx, Option.any_some, hs, hnew]; simp)

/-! ### The coder takes bytes (R44, R55) -/

/-- The coder's state after `k` bytes of the FIFO. -/
def Pe.takenIn (p : Pe) (k : Nat) : Pe :=
  { p with fifo := p.fifo.drop k, chunk := p.chunk ++ p.fifo.take k, crc := crcBytes p.crc (p.fifo.take k), taken := p.taken + k }

/-- The bytes taken lower what the chunk still needs. -/
theorem takenIn_chunkRoom {p : Pe} {k : Nat} (hfifo : k ≤ p.fifo.length) : (p.takenIn k).chunkRoom = p.chunkRoom - k := by
  have hraw : (p.takenIn k).raw = p.raw := rfl
  have hchunk : (p.takenIn k).chunk.length = p.chunk.length + k := by
    show (p.chunk ++ p.fifo.take k).length = _
    rw [List.length_append, List.length_take, Nat.min_eq_left hfifo]
  have htaken : (p.takenIn k).taken = p.taken + k := rfl
  unfold Pe.chunkRoom
  rw [hraw, hchunk, htaken]
  omega

theorem takeBytes_eq (p : Pe) (n : Nat) :
    p.takeBytes n =
      if 0 < min (min n p.fifo.length) p.chunkRoom ∧ (p.takenIn (min (min n p.fifo.length) p.chunkRoom)).chunkRoom = 0 then
        (p.takenIn (min (min n p.fifo.length) p.chunkRoom)).codeFull
      else p.takenIn (min (min n p.fifo.length) p.chunkRoom) := rfl

theorem takeBytes_part {p : Pe} {n : Nat} (hfifo : n ≤ p.fifo.length) (hroom : n < p.chunkRoom) :
    p.takeBytes n = p.takenIn n := by
  have hcount : min (min n p.fifo.length) p.chunkRoom = n := by omega
  rw [takeBytes_eq, hcount, if_neg fun h => by
    have := takenIn_chunkRoom hfifo
    omega]

theorem takeBytes_full {p : Pe} {n : Nat} (hfull : p.chunkRoom ≤ n) (hfifo : p.chunkRoom ≤ p.fifo.length)
    (hpos : 0 < p.chunkRoom) : p.takeBytes n = (p.takenIn p.chunkRoom).codeFull := by
  have hcount : min (min n p.fifo.length) p.chunkRoom = p.chunkRoom := by omega
  rw [takeBytes_eq, hcount, if_pos ⟨hpos, by rw [takenIn_chunkRoom hfifo, Nat.sub_self]⟩]

/-! ### The FILLING slot (R18, R21, R34) -/

/-- The lowest FREE slot but for the one kept, in the words of R18. -/
theorem lowestFree_iff (m : Spm) (kept : Option Nat) (i : Nat) :
    m.lowestFree kept = some i ↔
      (m.slots[i]?).map (·.state) = some .free ∧ kept ≠ some i
        ∧ ∀ k < i, (m.slots[k]?).map (·.state) = some .free → kept = some k := by
  unfold Spm.lowestFree
  rw [List.findIdx?_eq_some_iff_getElem]
  simp only [List.length_zipIdx, List.getElem_zipIdx, Nat.zero_add, Bool.and_eq_true, beq_iff_eq, bne_iff_ne]
  constructor
  · rintro ⟨hlt, ⟨hfree, hkept⟩, hbefore⟩
    refine ⟨by rw [List.getElem?_eq_getElem hlt, Option.map_some, hfree], hkept, fun k hk hkfree => ?_⟩
    have hklt : k < m.slots.length := by omega
    rw [List.getElem?_eq_getElem hklt, Option.map_some, Option.some_inj] at hkfree
    by_contra hne
    exact hbefore k hk ⟨hkfree, hne⟩
  · rintro ⟨hfree, hkept, hbefore⟩
    have hlt : i < m.slots.length := by
      by_contra hge
      rw [List.getElem?_eq_none (by omega)] at hfree
      exact absurd hfree nofun
    rw [List.getElem?_eq_getElem hlt, Option.map_some, Option.some_inj] at hfree
    refine ⟨hlt, ⟨hfree, hkept⟩, fun k hk hboth => hboth.2 (hbefore k hk ?_)⟩
    rw [List.getElem?_eq_getElem (by omega), Option.map_some, hboth.1]

/-- A FREE slot becomes FILLING with the waiting item's entry begun (R21, R24). -/
theorem takeFilling_eq (hfree : (s.spm.slots[i]?).map (·.state) = some .free) (hadmits : s.spm.admits .filling = true) :
    s.takeFilling i =
      { s with
        spm := { s.spm with
          slots := s.spm.slots.set i
            { state := .filling, stripe := some s.nextFilling.1, dataBytes := 0, entries := 1
              firstRecord := some s.nextFilling.2, copy := some 0, pos := none }
          sealTimer := if s.spm.sealInterval = 0 then none else some (s.spm.sealInterval * 400000) }
        pe := { s.pe with
          entryOpen := true, pieceFirst := !s.pe.anyPlaced, pieceCoded := 0, coder := .emitting
          emit := if s.pe.raw = 0 then .entry else .place } } := by
  obtain ⟨x, hx, hstate⟩ := Option.map_eq_some_iff.1 hfree
  have hlt : i < s.spm.slots.length := (List.getElem?_eq_some_iff.1 hx).1
  have hset (y : Slot) (f : Slot → Slot) : (s.spm.slots.set i y).modify i f = s.spm.slots.set i (f y) := by
    simp [List.modify_eq_set_getElem?, hlt]
  unfold State.takeFilling
  dsimp only
  rw [State.moveSlot_of_get hx hstate hadmits]
  exact congrArg
    (fun l => { s with
      spm := { s.spm with
        slots := l, sealTimer := if s.spm.sealInterval = 0 then none else some (s.spm.sealInterval * 400000) }
      pe := { s.pe with
        entryOpen := true, pieceFirst := !s.pe.anyPlaced, pieceCoded := 0, coder := .emitting
        emit := if s.pe.raw = 0 then .entry else .place } })
    (hset _ _)

/-! ### The seal timer (R22 to R24) -/

theorem withdrawBare_of_closed (hopen : s.pe.entryOpen = false) : s.withdrawBare i = s := by
  unfold State.withdrawBare
  rw [hopen]
  rfl

/-- A seal trigger over a slot without entries frees it (R22, case 2). -/
theorem triggerSeal_of_bare (hfill : s.filling = some i) (hopen : s.pe.entryOpen = false) (hnone : (s.slotAt i).entries = 0) :
    s.triggerSeal = (s.freeSlot i).onSpm fun m => { m with sealTimer := none } := by
  unfold State.triggerSeal
  rw [hfill]
  dsimp only
  rw [withdrawBare_of_closed hopen, if_pos hnone]

theorem sealTimerExpiry_runs {n : Nat} (htimer : s.spm.sealTimer = some n) :
    exec .sealTimerExpiry s
      = Host.Outcome.next (((s.elapse n).triggerSeal.onSpm fun m => { m with sealTimer := none }).finish) := by
  show execSealTimerExpiry s = _
  unfold execSealTimerExpiry
  rw [htimer]
  rfl

theorem sealDone_stops (s : State) (i : Nat) : (s.sealDone i).spm.sealing = none ∧ (s.sealDone i).spm.sealTimer = none := by
  unfold State.sealDone
  dsimp only
  split <;> exact ⟨rfl, rfl⟩

end

/-- Settles O51: the coder's step, the slot it is given, the seal timer's end and the entry that a sealing write places. -/
theorem codingAndFilling : Obligations.CodingAndFilling := by
  refine ⟨fun s n hcoder hfifo hroom => ?_, fun s n hcoder hfull hfifo hpos => ?_, fun s i => lowestFree_iff s.spm _ i,
    fun s i hcoder hdir hclear hsealing hfill hlow => ?_, fun s n i htimer hfill hopen => ?_, fun s n htimer hsealing => ?_,
    fun s i => sealDone_stops s i, fun s hcoder hopen hemit => ?_⟩
  · exact (if_pos hcoder).trans (next_congr (congrArg (fun p => State.finish { s with pe := p }) (takeBytes_part hfifo hroom)))
  · exact (if_pos hcoder).trans (next_congr (congrArg (fun p => State.finish { s with pe := p }) (takeBytes_full hfull hfifo hpos)))
  · have hadmits : s.spm.admits .filling = true := by
      unfold Spm.admits
      rw [hdir, hfill]
      rfl
    have hwanted : s.fillingWanted = some i := by
      unfold State.fillingWanted State.freeFor
      rw [if_pos ⟨hcoder, hclear, hsealing⟩, if_pos hadmits, hlow]
    show execFillingSlotTaken s = _
    unfold execFillingSlotTaken
    rw [hwanted]
    exact next_congr (congrArg State.finish (takeFilling_eq ((lowestFree_iff s.spm _ i).1 hlow).1 hadmits))
  · intro e
    rw [sealTimerExpiry_runs htimer]
    refine ⟨fun hnone => next_congr (congrArg State.finish ?_), fun hsome => next_congr (congrArg State.finish ?_)⟩
    · exact congrArg (fun e : State => e.onSpm fun m => { m with sealTimer := none })
        (triggerSeal_of_bare (s := e) hfill hopen hnone)
    · exact congrArg (fun e : State => e.onSpm fun m => { m with sealTimer := none })
        (triggerSeal_of_closed (s := e) hfill hopen hsome)
  · intro e
    have hnone : e.filling = none := if_pos hsealing
    rw [sealTimerExpiry_runs htimer]
    exact next_congr (congrArg (fun e : State => (e.onSpm fun m => { m with sealTimer := none }).finish)
      (triggerSeal_of_none hnone))
  · unfold State.reactEmit
    rw [if_pos ⟨hcoder, hopen⟩, hemit]
    exact ⟨fun hwaits => if_pos hwaits, fun hwaits => if_neg (by rw [hwaits]; exact Bool.false_ne_true)⟩

/-! ### Arming (R65, R66, R80) -/

section
variable {s : State}

theorem head_slot {i : Nat} (hhead : s.spm.head = some i) : (s.slotAt i).state = .sealed := by
  obtain ⟨⟨t, j⟩, hlow, rfl⟩ := Option.map_eq_some_iff.1 hhead
  obtain ⟨x, hx, hstate, -⟩ := mem_numbered.1 (lowestOf_mem hlow)
  rw [State.slotAt_of_get hx]
  exact beq_iff_eq.1 hstate

theorem armHead_eq {i : Nat} {p : TapePos} (hslot : (s.slotAt i).state = .sealed) (hwriting : s.spm.firstIn .writing = none)
    (hp : p.startable = true) :
    s.armHead i p = State.evaluate
      { s with
        spm := { s.spm with slots := s.spm.slots.modify i fun x => { x with state := .writing, pos := some p } }
        dram := Memory.writeBytes s.dram (s.slotBase i)
          (stampHeader (Memory.readBytes s.dram (s.slotBase i) 64) p ((s.slotAt i).copy.getD 0))
        tte := { s.tte with inFlight := some { slot := i, transfer := false, fetched := 0, sent := 0 }, fifo := [] }
        mc := s.mc.load p.mark .startMark, rg := { s.rg with flushed := false } } := by
  have hadmits : s.spm.admits .writing = true := by
    unfold Spm.admits
    rw [hwriting]
    rfl
  have hmoved := moveSlot_modify (fun x => { x with pos := some p }) hslot (by decide) hadmits
  obtain ⟨x, hx, -⟩ := slot_of_slotAt hslot (by decide)
  have hcopy : (State.slotAt { s with spm := { s.spm with
      slots := s.spm.slots.modify i fun x => { x with state := .writing, pos := some p } } } i).copy = (s.slotAt i).copy := by
    have hafter : (s.spm.slots.modify i fun x => { x with state := .writing, pos := some p })[i]?
        = some { x with state := .writing, pos := some p } := by
      rw [List.getElem?_modify_eq, hx]
      rfl
    rw [State.slotAt_of_get hx, State.slotAt_of_get hafter]
  have hstamped : (s.moveSlot i .sealed .writing fun x => { x with pos := some p }).stampSlot i p
      = { s with
          spm := { s.spm with slots := s.spm.slots.modify i fun x => { x with state := .writing, pos := some p } }
          dram := Memory.writeBytes s.dram (s.slotBase i)
            (stampHeader (Memory.readBytes s.dram (s.slotBase i) 64) p ((s.slotAt i).copy.getD 0)) } := by
    rw [hmoved]
    unfold State.stampSlot
    rw [hcopy]
    rfl
  refine (congrArg
    (fun e : State => State.evaluate (((e.onTte fun t =>
      { t with inFlight := some { slot := i, transfer := false, fetched := 0, sent := 0 }, fifo := [] }).onMc
        fun m => m.loadStart p).onRg fun r => { r with flushed := false })) hstamped).trans ?_
  have hload : s.mc.loadStart p = s.mc.load p.mark .startMark := if_pos hp
  rw [← hload]
  generalize stampHeader (Memory.readBytes s.dram (s.slotBase i) 64) p ((s.slotAt i).copy.getD 0) = header
  rfl

theorem armStripe_runs {p : TapePos} (hpoint : s.tte.writePoint = some p) (hmay : s.mayArm = true) :
    exec .armStripe s =
      if p.startable then
        match s.spm.head with
        | some i => if s.mc.ahead p then (s.armHead i p).done else s.unchanged
        | none => s.unchanged
      else if p.pass < Config.lastPass then (s.writeTurn p).done
      else if s.spm.head.isSome then s.mediaEnd.done
      else s.unchanged := by
  show execArmStripe s = _
  unfold execArmStripe
  rw [hpoint, hmay]
  rfl

theorem writeTurn_of_none {p : TapePos} (hverify : s.tte.verify = none) :
    s.writeTurn p = { s with mc := s.mc.turn, tte := { s.tte with writePoint := some p.nextPass } } := by
  have hnone : s.tte.verify.isSome = false := by rw [hverify]; rfl
  exact if_neg fun hsome => Bool.false_ne_true (hnone.symm.trans hsome)

/-! ### Terminations (R68, R72) -/

/-- A transfer that has sent its whole stripe awaits its report. -/
theorem countEnd_eq {f : InFlight} (hverify : s.tte.verify = none) (hslot : (s.slotAt f.slot).state = .writing)
    (hawait : s.spm.firstIn .awaitVerify = none) :
    s.countEnd f =
      { s with
        spm := { s.spm with slots := s.spm.slots.modify f.slot fun x => { x with state := .awaitVerify } }
        tte := { s.tte with
          inFlight := none, fifo := []
          verify := some { slot := f.slot, mark := (((s.slotAt f.slot).pos).map (·.mark)).getD 0
                           runOn := s.tte.runOn.isSome } } } := by
  have hadmits : s.spm.admits .awaitVerify = true := by
    unfold Spm.admits
    rw [hawait]
    rfl
  unfold State.countEnd
  rw [deadline_of_none hverify]
  dsimp only
  rw [moveSlot_modify id hslot (by decide) hadmits]
  rfl

theorem countTermination_runs {f : InFlight} (hflight : s.tte.inFlight = some f) (htransfer : f.transfer = true)
    (hsent : 1048576 ≤ f.sent) : exec .transferCountTermination s = Host.Outcome.next (s.countEnd f).finish := by
  show execTransferCountTermination s = _
  unfold execTransferCountTermination
  rw [hflight]
  exact if_pos ⟨htransfer, hsent⟩

theorem starvation_runs {f : InFlight} (hflight : s.tte.inFlight = some f) (htransfer : f.transfer = true)
    (hsent : f.sent < 1048576) (hfifo : s.tte.fifo = []) :
    exec .channelStarvation s = Host.Outcome.next s.deadline.returnInFlight.finish := by
  have hend : s.channelEnd = s.deadline.returnInFlight := by rw [channelEnd_of_some hflight, if_pos htransfer]
  show execChannelStarvation s = _
  unfold execChannelStarvation
  rw [hflight, hend]
  exact if_pos ⟨htransfer, hsent, hfifo⟩

/-- What a report missed leaves of the transfer that goes on. -/
theorem judgeFailed_transfer (s : State) (i : Nat) (c : Option Counts) :
    (s.judgeFailed i c).tte.inFlight = s.tte.inFlight ∧ (s.judgeFailed i c).tte.runOn = s.tte.runOn
      ∧ (s.judgeFailed i c).spm.clearing = s.spm.clearing ∧ (s.judgeFailed i c).tte.verify = none := by
  have hrunning := State.judgeFailed_running s i c
  exact ⟨congrArg (·.1) hrunning, congrArg (·.2.2.1) hrunning, congrArg (·.2.2.2.2.2) hrunning,
    congrArg (·.1) (State.judgeFailed_checking s i c)⟩

/-! ### Reports (R70, R71) -/

theorem verifyReport_runs {v : Verify} {p : TapePos} (header : HeaderRead) (counts : Counts) (hverify : s.tte.verify = some v)
    (hpos : (s.slotAt v.slot).pos = some p) :
    exec (.verifyReport v.mark header counts) s = Host.Outcome.next
      (if headerValidAt header.valid header.bytes p = true ∧ counts.rows = 0 ∧ counts.maxCorrected ≤ s.hm.threshold then
          s.judgeGood v.slot counts
        else s.judgeFailed v.slot (some counts)).finish := by
  have hgood : verifyGood (headerValidAt header.valid header.bytes p) counts s.hm.threshold = true
      ↔ headerValidAt header.valid header.bytes p = true ∧ counts.rows = 0 ∧ counts.maxCorrected ≤ s.hm.threshold := by
    unfold verifyGood
    rw [Bool.and_eq_true, Bool.and_eq_true, beq_iff_eq, decide_eq_true_iff, and_assoc]
  show execVerifyReport v.mark header counts s = _
  unfold execVerifyReport
  rw [hverify]
  dsimp only
  rw [if_neg (not_not_intro rfl), hpos, Option.getD_some]
  exact next_congr (congrArg State.finish (if_congr hgood rfl rfl))

end

/-- Settles O54: ARM_STRIPE by its conditions, then the ends of a transfer with and without a report that is due. -/
theorem stripesAreWrittenAndVerified : Obligations.StripesAreWrittenAndVerified := by
  refine ⟨fun s p i hpoint hmay hp hhead hahead hwriting => ?_, fun s p hpoint hmay hp hpass hverify => ?_,
    fun s p hpoint hmay hp hpass hhead => ?_,
    fun s f hflight htransfer hverify hslot => ⟨fun hsent hawait => ?_, fun hsent hfifo hclear => ?_⟩,
    fun s f v hflight htransfer hverify => ?_,
    fun s v p header counts hverify hpos => verifyReport_runs header counts hverify hpos⟩
  · rw [armStripe_runs hpoint hmay, if_pos hp, hhead]
    exact (if_pos hahead).trans (next_congr (congrArg State.finish (armHead_eq (head_slot hhead) hwriting hp)))
  · rw [armStripe_runs hpoint hmay, if_neg (by rw [hp]; exact Bool.false_ne_true)]
    exact (if_pos hpass).trans (next_congr (congrArg State.finish (writeTurn_of_none hverify)))
  · rw [armStripe_runs hpoint hmay, if_neg (by rw [hp]; exact Bool.false_ne_true)]
    exact (if_neg (Nat.not_lt.2 hpass)).trans (if_pos hhead)
  · rw [countTermination_runs hflight htransfer hsent, countEnd_eq hverify hslot hawait]
  · rw [starvation_runs hflight htransfer hsent hfifo, deadline_of_none hverify, returnInFlight_of_some hflight hslot]
    exact next_congr (congrArg State.finish (if_neg (by rw [hclear]; exact Bool.false_ne_true)))
  · intro u put hslot
    obtain ⟨hsame, hrun, hclear, hdone⟩ := judgeFailed_transfer s v.slot none
    refine ⟨fun hsent hawait => ?_, fun hsent hfifo => ?_⟩
    · have hend : s.countEnd f = u.countEnd f := by
        unfold State.countEnd
        rw [deadline_of_some hverify, deadline_of_none hdone]
      rw [countTermination_runs hflight htransfer hsent, hend, countEnd_eq hdone hslot hawait, hrun]
    · intro e
      rw [starvation_runs hflight htransfer hsent hfifo, deadline_of_some hverify,
        returnInFlight_of_some (hsame.trans hflight) hslot, ← hclear]

end Sys2Proof.Machine
end

section
/-! PROOFS. Reading positions, retries and failure markers (R86 to R92): settles O57. -/

namespace Sys2Proof.Machine

section
variable {s : State} {r : ReadState} {x : Reception} {p : TapePos} {w : Window} {i : Nat}

/-! ### The reading state -/

theorem onRead_of_some (f : ReadState → ReadState) (hr : s.tte.read = some r) :
    s.onRead f = { s with tte := { s.tte with read := some (f r) } } :=
  congrArg (fun q => { s with tte := { s.tte with read := q } }) ((congrArg (Option.map f) hr : s.tte.read.map f = _))

/-! ### Slots asked for (R17, R18, R29) -/

/-- A slot is to be had for reading in READ_OPEN, with none READING and one FREE. -/
theorem freeFor_reading_eq_none_iff :
    s.freeFor .reading = none ↔ s.spm.direction ≠ .readOpen ∨ s.spm.firstIn .reading ≠ none ∨ s.lowestFree = none := by
  unfold State.freeFor
  by_cases hdir : s.spm.direction = .readOpen
  · cases hread : s.spm.firstIn .reading <;> simp [Spm.admits, hdir, hread]
  · simp [Spm.admits, hdir]

theorem admits_reading (hdir : s.spm.direction = .readOpen) (hread : s.spm.firstIn .reading = none) :
    s.spm.admits .reading = true := by
  unfold Spm.admits
  rw [hdir, hread]
  rfl

theorem admits_readFailed (hdir : s.spm.direction = .readOpen) : s.spm.admits .readFailed = true := by
  unfold Spm.admits
  rw [hdir]
  rfl

/-- A FREE slot's record goes to a state the table admits. -/
theorem moveSlot_of_lowestFree {g : SlotState} (f : Slot → Slot) (hlow : s.lowestFree = some i)
    (hadmits : s.spm.admits g = true) :
    s.moveSlot i .free g f
      = { s with spm := { s.spm with slots := s.spm.slots.modify i fun y => { f y with state := g } } } := by
  obtain ⟨y, hy, hfree⟩ := Option.map_eq_some_iff.1 ((lowestFree_iff s.spm _ i).1 hlow).1
  exact if_pos (by rw [hy, Option.any_some, hfree, hadmits]; rfl)

theorem askSlot_of_none (hr : s.tte.read = some r) (hnone : s.freeFor .reading = none) :
    s.askSlot p = { s with tte := { s.tte with read := some { r with asked := true } } } := by
  unfold State.askSlot
  rw [hnone]
  exact onRead_of_some _ hr

/-- The lowest FREE slot becomes READING for the position, a stripe start but in a retry (R86, R110). -/
theorem askSlot_of_some (hr : s.tte.read = some r) (hasked : r.asked = false) (hlow : s.lowestFree = some i)
    (hadmits : s.spm.admits .reading = true) :
    s.askSlot p =
      let e : State :=
        { s with
          spm := { s.spm with slots := s.spm.slots.modify i fun _ => { Slot.empty with state := .reading } }
          tte := { s.tte with
            read := some { r with
              reception := some { slot := i, pos := p, overrun := false, started := false, stored := 0 } } } }
      if r.inRetry then e else e.evaluate := by
  have hfree : s.freeFor .reading = some i := by
    unfold State.freeFor
    rw [if_pos hadmits]
    exact hlow
  have htaken : ((s.moveSlot i .free .reading fun _ => Slot.empty).onRead fun r =>
      { r with asked := false, reception := some { slot := i, pos := p, overrun := false, started := false, stored := 0 } })
      = { s with
          spm := { s.spm with slots := s.spm.slots.modify i fun _ => { Slot.empty with state := .reading } }
          tte := { s.tte with
            read := some { r with
              asked := false
              reception := some { slot := i, pos := p, overrun := false, started := false, stored := 0 } } } } := by
    rw [moveSlot_of_lowestFree _ hlow hadmits]
    exact onRead_of_some _ hr
  unfold State.askSlot
  rw [hfree]
  dsimp only
  rw [htaken, hr, ← hasked]

/-! ### Ends of passes and of data (R86, R92) -/

theorem readTurn_goes_on (hr : s.tte.read = some r) (hpass : p.pass < 63) :
    s.readTurn p =
      { s with mc := s.mc.turn, tte := { s.tte with read := some { r with point := some p.nextPass, asked := false } } } := by
  unfold State.readTurn
  rw [if_pos (show p.pass < Config.lastPass from hpass)]
  exact onRead_of_some (s := s.onMc Mc.turn) _ hr

theorem readTurn_at_end (hpass : 63 ≤ p.pass) :
    s.readTurn p = match s.ruleMissing.tte.read with
      | some q => s.ruleMissing.foundEod { stripe := q.n, byDirectory := false }
      | none => s.ruleMissing := by
  unfold State.readTurn
  exact if_neg (show ¬p.pass < Config.lastPass from Nat.not_lt.2 hpass)

theorem ruleMissing_of_none (hr : s.tte.read = some r) (hx : r.reception = none) : s.ruleMissing = s := by
  unfold State.ruleMissing
  rw [hr]
  dsimp only
  rw [hx]

theorem ruleMissing_of_started (hr : s.tte.read = some r) (hx : r.reception = some x) (hstarted : x.started = true) :
    s.ruleMissing = s.rule r x none := by
  unfold State.ruleMissing
  rw [hr]
  dsimp only
  rw [hx]
  exact if_pos hstarted

/-- What a failure marker's placing may not disturb: the slots, the markers, n, and whether n's round is fresh. -/
def State.marking (s : State) : List Slot × List Marker × Option (Nat × Nat × Bool) :=
  (s.spm.slots, s.tte.markers, s.tte.read.map fun r => (r.n, r.retries, r.markerAsked))

theorem foundEod_marking (s : State) (e : EodFound) : (s.foundEod e).marking = s.marking := by
  unfold State.foundEod
  cases hr : s.tte.read with
  | none => rfl
  | some r =>
    dsimp only
    split
    · rw [onRead_of_some _ hr]; unfold State.marking; rw [hr]; rfl
    · rw [onRead_of_some _ hr]
      split <;> (unfold State.marking; rw [hr]; rfl)

/-! ### n goes on (R89, R91) -/

theorem le_advanceOver (carried : List Nat) (fuel n : Nat) : n ≤ advanceOver carried fuel n := by
  induction fuel generalizing n with
  | zero => exact le_refl n
  | succ f ih =>
    unfold advanceOver
    split
    · exact Nat.le_of_succ_le (ih (n + 1))
    · exact le_refl n

/-- n goes past a number that a slot carries. -/
theorem lt_advanceOver {carried : List Nat} {fuel n : Nat} (hfuel : 0 < fuel) (hmem : n ∈ carried) :
    n < advanceOver carried fuel n := by
  obtain ⟨f, rfl⟩ := Nat.exists_eq_succ_of_ne_zero (Nat.pos_iff_ne_zero.1 hfuel)
  unfold advanceOver
  rw [if_pos (List.contains_iff_mem.2 hmem)]
  exact le_advanceOver carried f (n + 1)

/-- n goes on past what is carried, and a fresh round begins. -/
theorem advanceN_marking (takeFloor : Bool) (hr : s.tte.read = some r) :
    (s.advanceN takeFloor).marking
      = (s.spm.slots, s.tte.markers, some (advanceOver s.spm.carried s.spm.n r.n, 0, r.markerAsked)) := by
  unfold State.advanceN
  rw [hr]
  dsimp only
  rw [onRead_of_some _ hr]
  split
  · split
    · exact foundEod_marking ..
    · rfl
  · rfl

/-- A stripe's number is among those carried once a slot is READ_FAILED for it. -/
theorem mem_carried_of_failed {m : Spm} {y : Slot} {n : Nat} (hy : m.slots[i]? = some y) (hfailed : y.state = .readFailed)
    (hn : y.stripe = some n) : n ∈ m.carried :=
  List.mem_map.2 ⟨(n, i), mem_numbered.2 ⟨y, hy, by rw [hfailed]; rfl, hn⟩, rfl⟩

/-! ### Retries (R90) -/

theorem stoppedEod (e : Option EodFound) :
    (match e with | some e => if e.byDirectory then some e else none | none => none)
      = e.bind fun e => if e.byDirectory then some e else none := by
  cases e <;> rfl

/-- A retry with no reception in flight drops what was read above n and goes back to 12 marks before the window's origin. -/
theorem beginRetry_eq (hr : s.tte.read = some r) (hx : r.reception = none) :
    s.beginRetry r w =
      let slots := s.spm.slots.map fun y => if y.state = .readDone ∧ r.n < y.stripe.getD 0 then Slot.empty else y
      let e : State :=
        { s with
          spm := { s.spm with slots := slots }
          tte := { s.tte with
            read := some { r with
              asked := false, retries := r.retries + 1, inRetry := true, retryDue := false, blanks := 0
              eod := r.eod.bind fun e => if e.byDirectory then some e else none
              point := some (w.origin.before 12).position, window := some { w with count := 0, counting := false } } }
          rg := { s.rg with stopKind := .none, readStart := .atOnce, held := none } }
      if s.mc.state = .streaming ∨ s.mc.state = .turnaround then
        { e with free := s.free + 1, mc := s.mc.reposition (Config.stopMarks s.free) }
      else e := by
  have hawait : s.rg.await .none .atOnce = { s.rg with stopKind := .none, readStart := .atOnce, held := none } := by
    unfold Rg.await
    rw [show (ReadAsk.atOnce == ReadAsk.asked) = false by decide, Bool.or_false]
  have hslots : s.spm.slots.map (fun y => if (y.state == .readDone && decide (r.n < y.stripe.getD 0)) then Slot.empty else y)
      = s.spm.slots.map fun y => if y.state = .readDone ∧ r.n < y.stripe.getD 0 then Slot.empty else y := by
    refine List.map_congr_left fun y _ => ?_
    simp only [Bool.and_eq_true, beq_iff_eq, decide_eq_true_eq]
  dsimp only
  rw [← hslots, ← hawait, ← stoppedEod]
  unfold State.beginRetry
  rw [abandonReception_of_none hr hx]
  dsimp only [State.onRead, State.onTte, State.freeAll, State.onSpm, Option.map_some]
  split <;> rfl

/-! ### Failure markers (R91) -/

theorem askMarker_eq (hr : s.tte.read = some r) :
    s.askMarker =
      let e : State := { s with tte := { s.tte with read := some { r with retryDue := false, markerAsked := true } } }
      match s.freeFor .readFailed with
      | some i => e.placeMarker i
      | none => e := by
  unfold State.askMarker
  rw [onRead_of_some _ hr]
  rfl

theorem askMarker_of_none (hr : s.tte.read = some r) (hnone : s.lowestFree = none) :
    s.askMarker = { s with tte := { s.tte with read := some { r with retryDue := false, markerAsked := true } } } := by
  have hfree : s.freeFor .readFailed = none := by
    unfold State.freeFor
    split
    · exact hnone
    · rfl
  rw [askMarker_eq hr, hfree]

theorem askMarker_of_some (hr : s.tte.read = some r) (hdir : s.spm.direction = .readOpen) (hlow : s.lowestFree = some i) :
    s.askMarker =
      State.placeMarker { s with tte := { s.tte with read := some { r with retryDue := false, markerAsked := true } } } i := by
  have hfree : s.freeFor .readFailed = some i := by
    unfold State.freeFor
    rw [if_pos (admits_readFailed hdir)]
    exact hlow
  rw [askMarker_eq hr, hfree]

/-- The marker takes the slot, keeps n's first bad copy or the window's origin, and n goes on past it. -/
theorem placeMarker_marking (hr : s.tte.read = some r) (hw : r.window = some w) (hdir : s.spm.direction = .readOpen)
    (hlow : s.lowestFree = some i) :
    ∃ n, r.n < n ∧ (s.placeMarker i).marking =
      (s.spm.slots.modify i (fun _ => { Slot.empty with state := .readFailed, stripe := some r.n }),
        s.tte.markers ++ [{ stripe := r.n, origin := r.firstBad.getD w.origin, met := false }], some (n, 0, false)) := by
  obtain ⟨y, hy, -⟩ := Option.map_eq_some_iff.1 ((lowestFree_iff s.spm _ i).1 hlow).1
  have hlt : i < s.spm.slots.length := (List.getElem?_eq_some_iff.1 hy).1
  let m : Spm :=
    { s.spm with slots := s.spm.slots.modify i fun _ => { Slot.empty with state := .readFailed, stripe := some r.n } }
  have hcarried : r.n ∈ m.carried :=
    mem_carried_of_failed (i := i) (y := { Slot.empty with state := .readFailed, stripe := some r.n })
      (by simp [m, hy]) rfl rfl
  have hfuel : 0 < m.n := by
    show 0 < (s.spm.slots.modify i _).length
    rw [List.length_modify]
    omega
  refine ⟨advanceOver m.carried m.n r.n, lt_advanceOver hfuel hcarried, ?_⟩
  have hplaced (e : State) (he : e.spm = m)
      (ht : e.tte.markers = s.tte.markers ++ [{ stripe := r.n, origin := r.firstBad.getD w.origin, met := false }])
      (hq : e.tte.read = some { r with markerAsked := false, eod := none }) :
      (e.advanceN false).marking = (m.slots, s.tte.markers ++ [{ stripe := r.n, origin := r.firstBad.getD w.origin, met := false }],
        some (advanceOver m.carried m.n r.n, 0, false)) := by
    rw [advanceN_marking false hq, he, ht]
  unfold State.placeMarker
  rw [hr]
  dsimp only
  rw [hw, moveSlot_of_lowestFree _ hlow (admits_readFailed hdir)]
  generalize hadv : State.advanceN _ false = e
  have he : e.marking = _ := hadv ▸ hplaced _ rfl rfl (congrArg (Option.map _) hr)
  rw [← he]
  cases r.eod with
  | none =>
    dsimp only
    split <;> rfl
  | some found =>
    cases e.tte.read with
    | none => rfl
    | some q => exact foundEod_marking ..

end

/-- Settles O57: each row of the reading in its cases. -/
theorem positionsAreRead : Obligations.PositionsAreRead := by
  unfold Obligations.PositionsAreRead
  refine ⟨?starts, ?receptions, ?lastPass, ?retries⟩
  case starts =>
    intro s r p hr hp hm hslow hthermal hgoing hx hasked hloop
    have hrow : exec .readPositionStart s = .next (if p.startable then s.askSlot p else s.readTurn p).finish := by
      show execReadPositionStart s = _
      unfold execReadPositionStart
      rw [show s.tte.read.bind (·.point) = some p by rw [hr]; exact hp, hr]
      exact if_pos ⟨hm, hslow, hthermal, hgoing, hx, hasked, hloop⟩
    refine ⟨fun hstart hnone => ?_, fun i hstart hdir hread hlow => ?_, fun hstart hpass => ?_, fun hstart hpass => ?_⟩
    · rw [hrow, if_pos hstart, askSlot_of_none hr (freeFor_reading_eq_none_iff.2 hnone)]
    · rw [hrow, if_pos hstart, askSlot_of_some hr hasked hlow (admits_reading hdir hread)]
    · rw [hrow, if_neg (by rw [hstart]; exact Bool.false_ne_true), readTurn_goes_on hr hpass, ← hasked]
    · rw [hrow, if_neg (by rw [hstart]; exact Bool.false_ne_true), readTurn_at_end hpass, ruleMissing_of_none hr hx, hr]
  case receptions =>
    intro s r x hr hx hstarted
    have hbind : s.tte.read.bind (·.reception) = some x := by rw [hr]; exact hx
    refine ⟨fun hfull => ?_, fun blank valid counts => ?_⟩
    · show execReceptionOverrun s = _
      unfold execReceptionOverrun
      rw [hbind]
      exact (if_pos ⟨hstarted, hfull⟩).trans (next_congr (congrArg State.finish (onRead_of_some _ hr)))
    · intro m
      show execReceptionReport x.pos.pass x.pos.mark blank valid counts s = _
      unfold execReceptionReport
      rw [hbind, hr]
      exact if_pos ⟨hstarted, rfl⟩
  case lastPass =>
    intro s r x p hr hx hstarted hpass
    rw [readTurn_at_end hpass, ruleMissing_of_started hr hx hstarted] <;> rfl
  case retries =>
    intro s r w hr hw hdue hx hm hj
    have hrow : exec .retryStart s
        = .next (if r.inRetry = true ∧ 4 ≤ r.retries then s.askMarker else s.beginRetry r w).finish := by
      show execRetryStart s = _
      unfold execRetryStart
      rw [show s.tte.read.bind (·.window) = some w by rw [hr]; exact hw, hr]
      exact if_pos ⟨hdue, hm, hj⟩
    refine ⟨fun hmore => ?_, fun hin hfour => ⟨fun hnone => ?_, fun i hdir hlow => ⟨s.askMarker, ?_, ?_⟩⟩⟩
    · intro slots e
      have hnot : ¬(r.inRetry = true ∧ 4 ≤ r.retries) := by
        rintro ⟨hin, hfour⟩
        cases hmore with
        | inl h => exact Bool.false_ne_true (h.symm.trans hin)
        | inr h => omega
      exact hrow.trans (next_congr (congrArg State.finish ((if_neg hnot).trans (beginRetry_eq hr hx))))
    · exact hrow.trans (next_congr (congrArg State.finish ((if_pos ⟨hin, hfour⟩).trans (askMarker_of_none hr hnone))))
    · exact hrow.trans (next_congr (congrArg State.finish (if_pos ⟨hin, hfour⟩)))
    · obtain ⟨n, hn, hmarking⟩ := placeMarker_marking
        (s := { s with tte := { s.tte with read := some { r with retryDue := false, markerAsked := true } } }) rfl hw hdir hlow
      rw [← askMarker_of_some hr hdir hlow] at hmarking
      refine ⟨congrArg (·.1) hmarking, congrArg (·.2.1) hmarking, ?_⟩
      obtain ⟨q, hq, hfields⟩ := Option.map_eq_some_iff.1 (congrArg (·.2.2) hmarking)
      have hqn : q.n = n := congrArg (·.1) hfields
      exact ⟨q, hq, hqn ▸ hn, congrArg (·.2.1) hfields, congrArg (·.2.2) hfields⟩

end Sys2Proof.Machine
end

section
/-! PROOFS. Record delivery (R30, R59, R93 to R100): settles O60. -/

namespace Sys2Proof.Machine

section
variable {s : State} {d : Delivery} {i : Nat}

section
variable {id : Nat} {k : Taken}

/-! ### What a completion leaves -/

theorem complete_ue (id : Nat) (r : Result) (a b : Detail) : (s.complete id r a b).ue = s.ue := by
  unfold State.complete State.tryRecord
  split
  · rfl
  · dsimp only
    split <;> rfl

theorem complete_mc (id : Nat) (r : Result) (a b : Detail) : (s.complete id r a b).mc = s.mc := by
  unfold State.complete State.tryRecord
  split
  · rfl
  · dsimp only
    split <;> rfl

/-- A completion's item joins the pending list. -/
theorem complete_pending (r : Result) (a b : Detail)
    (hk : (s.ci.outstanding.find? fun u => u.id == id && u.stage != .handed) = some k) :
    (s.complete id r a b).cw.pending = s.cw.pending ++ [s.stamp (some id) k.tag k.cmd.code r.code a b] := by
  unfold State.complete
  rw [hk]
  exact State.tryRecord_cw_pending _

/-! ### The end of a delivery (R98 to R100) -/

theorem endDelivery_of_some (x : Nat × Nat) (r : Result) (residual : Option Nat) (stripe : Nat) (hid : s.ue.cmd = some id) :
    s.endDelivery x r residual stripe =
      { s.complete id r (dv 4 x.1 ++ dv 4 x.2) ((match residual with | some n => dv 4 n | none => du 4) ++ dv 4 stripe) with
        ue := { s.ue with state := .done, cmd := none, length := s.ue.cursor, record := none, output := []
                          decoder := Decoder.empty, crc := 0xFFFFFFFF } } := by
  unfold State.endDelivery
  rw [hid]
  dsimp only
  rw [← complete_ue (s := s) id r (dv 4 x.1 ++ dv 4 x.2)
    ((match residual with | some n => dv 4 n | none => du 4) ++ dv 4 stripe)]
  rfl

theorem endDelivery_mc (x : Nat × Nat) (r : Result) (residual : Option Nat) (stripe : Nat) :
    (s.endDelivery x r residual stripe).mc = s.mc := by
  unfold State.endDelivery
  split
  · rfl
  · exact complete_mc ..

theorem endDelivery_spm (x : Nat × Nat) (r : Result) (residual : Option Nat) (stripe : Nat) :
    (s.endDelivery x r residual stripe).spm = s.spm := by
  unfold State.endDelivery
  split
  · rfl
  · exact State.complete_spm ..

/-- The delivery of command `id`, as it stood in s, has ended in t and completed (R98). -/
def DeliveryDone (s t : State) (id : Nat) (k : Taken) (r : Result) (x : Nat × Nat) (residual : Option Nat) (stripe : Nat) : Prop :=
  t.ue.state = .done ∧ t.ue.cmd = none ∧ t.ue.length = s.ue.cursor ∧ t.ue.output = [] ∧ t.ue.record = none
  ∧ ∃ i, t.cw.pending = s.cw.pending ++ [i] ∧ i.cmd = some id ∧ i.tag = k.tag ∧ i.value = r.code
    ∧ i.detailA = dv 4 x.1 ++ dv 4 x.2
    ∧ i.detailB = (match residual with | some n => dv 4 n | none => du 4) ++ dv 4 stripe

/-- A delivery that ends in u, whose command and Unpack Engine are as s has them, completes. -/
theorem endDelivery_done {u : State} (hue : u.ue = s.ue) (hci : u.ci = s.ci) (hcw : u.cw = s.cw) (hid : s.ue.cmd = some id)
    (hk : (s.ci.outstanding.find? fun v => v.id == id && v.stage != .handed) = some k)
    (x : Nat × Nat) (r : Result) (residual : Option Nat) (stripe : Nat) :
    DeliveryDone s (u.endDelivery x r residual stripe) id k r x residual stripe := by
  unfold DeliveryDone
  rw [endDelivery_of_some x r residual stripe (hue ▸ hid)]
  have hpending := (complete_pending (s := u) r (dv 4 x.1 ++ dv 4 x.2)
    ((match residual with | some n => dv 4 n | none => du 4) ++ dv 4 stripe) (hci ▸ hk)).trans
      (congrArg (fun c : Cw => c.pending ++ _) hcw)
  exact ⟨rfl, rfl, congrArg Ue.cursor hue, rfl, rfl, _, hpending, rfl, rfl, rfl, rfl, rfl⟩

end

/-! ### Slots returned and freed (R30) -/

/-- A slot that goes back to READ_DONE leaves the engines as they stand. -/
theorem returnSlot_rest (s : State) :
    s.returnSlot.ue = s.ue ∧ s.returnSlot.ci = s.ci ∧ s.returnSlot.cw = s.cw ∧ s.returnSlot.mc = s.mc := by
  unfold State.returnSlot State.moveSlot
  split
  · split <;> exact ⟨rfl, rfl, rfl, rfl⟩
  · exact ⟨rfl, rfl, rfl, rfl⟩

theorem firstIn_state {m : Spm} {g : SlotState} (h : m.firstIn g = some i) : ∃ y, m.slots[i]? = some y ∧ y.state = g := by
  obtain ⟨hlt, hstate, -⟩ := List.findIdx?_eq_some_iff_getElem.1 h
  exact ⟨m.slots[i], List.getElem?_eq_getElem hlt, beq_iff_eq.1 hstate⟩

theorem returnSlot_slots (h : s.spm.firstIn .delivering = some i) :
    s.returnSlot.spm.slots = s.spm.slots.modify i fun y => { y with state := .readDone } := by
  obtain ⟨y, hy, hstate⟩ := firstIn_state h
  have hmoved : s.moveSlot i .delivering .readDone id = s.setSlot i fun x => { id x with state := .readDone } :=
    if_pos (by rw [hy, Option.any_some, hstate]; rfl)
  unfold State.returnSlot
  rw [h]
  exact congrArg (·.spm.slots) hmoved

/-! ### A record passed (R99, R100) -/

/-- The state in which the delivery of a passed record ends. -/
def State.passed (s : State) (i e r : Nat) : State :=
  if e + 1 < (s.slotAt i).entries then (s.onMc fun m => { m with dsPos := some (s.advancedPos i e r) }).returnSlot
  else (s.onMc fun m => { m with dsPos := some (s.advancedPos i e r) }).deliveredFree i

theorem passed_rest (s : State) (i e r : Nat) :
    (s.passed i e r).ue = s.ue ∧ (s.passed i e r).ci = s.ci ∧ (s.passed i e r).cw = s.cw
      ∧ (s.passed i e r).mc.dsPos = some (s.advancedPos i e r) := by
  unfold State.passed
  split
  · obtain ⟨hue, hci, hcw, hmc⟩ := returnSlot_rest (s.onMc fun m => { m with dsPos := some (s.advancedPos i e r) })
    exact ⟨hue, hci, hcw, congrArg Mc.dsPos hmc⟩
  · exact ⟨rfl, rfl, rfl, rfl⟩

theorem advancedPos_record (i e r : Nat) : (s.advancedPos i e r).record = r + 1 := by
  unfold State.advancedPos
  dsimp only
  split <;> rfl

theorem passed_frees {e : Nat} (r : Nat) (hlast : (s.slotAt i).entries ≤ e + 1) :
    (s.passed i e r).spm.slots = s.spm.slots.modify i fun _ => Slot.empty := by
  unfold State.passed
  rw [if_neg (by omega)]
  rfl

theorem passed_returns {e n : Nat} (r : Nat) (hmore : e + 1 < (s.slotAt i).entries) (hn : s.spm.firstIn .delivering = some n) :
    (s.passed i e r).spm.slots = s.spm.slots.modify n fun y => { y with state := .readDone } := by
  unfold State.passed
  rw [if_pos hmore]
  exact returnSlot_slots (s := s.onMc fun m => { m with dsPos := some (s.advancedPos i e r) }) hn

/-! ### Opening (R30, R95) -/

theorem tryOpen_waits (hjob : s.mc.job ≠ none) : s.tryOpen = s :=
  if_pos (Option.isSome_iff_ne_none.2 hjob)

theorem tryOpen_eq (hjob : s.mc.job = none) :
    s.tryOpen =
      match s.openingAtEnd with
      | some (p, q) => (s.onMc fun m => { m with dsPos := some q }).endDelivery (p.record, 0) .endOfData none p.stripe
      | none =>
        match s.mc.dsPos, s.spm.bottom with
        | some p, some (t, i) =>
          if t ≠ p.stripe then s
          else if (s.slotAt i).state = .readFailed then s.meetMarker i t .mediaError t
          else if s.spm.admits .delivering then (s.moveSlot i .readDone .delivering id).openEntryOf i p
          else s
        | _, _ => s := by
  unfold State.tryOpen
  rw [hjob] <;> rfl

/-- The bottom of the read-ahead order is READ_DONE where it is not READ_FAILED. -/
theorem bottom_readDone {t : Nat} (h : s.spm.bottom = some (t, i)) (hne : (s.slotAt i).state ≠ .readFailed) :
    ∃ y, s.spm.slots[i]? = some y ∧ y.state = .readDone := by
  obtain ⟨y, hy, hok, -⟩ := mem_numbered.1 (lowestOf_mem h)
  rw [State.slotAt_of_get hy] at hne
  rw [Bool.or_eq_true, beq_iff_eq, beq_iff_eq] at hok
  exact ⟨y, hy, hok.resolve_right hne⟩

/-- The bottom of the read-ahead order becomes DELIVERING where no slot is. -/
theorem moveSlot_bottom {t : Nat} (h : s.spm.bottom = some (t, i)) (hne : (s.slotAt i).state ≠ .readFailed)
    (hnone : s.spm.firstIn .delivering = none) :
    s.moveSlot i .readDone .delivering id
      = { s with spm := { s.spm with slots := s.spm.slots.modify i fun x => { x with state := .delivering } } } := by
  obtain ⟨y, hy, hdone⟩ := bottom_readDone h hne
  refine if_pos ?_
  rw [hy, Option.any_some, hdone]
  unfold Spm.admits
  rw [hnone]
  rfl

/-! ### Decoding (R59, R98) -/

theorem exec_decodeStep (hrec : s.ue.record = some d) (hpass : d.passOver = false)
    (hstate : s.ue.state = .open_ ∨ s.ue.state = .finishing) : exec .decodeStep s = .next (s.decodeRun d).finish := by
  show execDecodeStep s = _
  unfold execDecodeStep
  rw [hrec]
  exact if_pos ⟨hpass, hstate⟩

/-- The state after a run of the decoder. -/
def State.ran (s : State) (d : Delivery) : State :=
  s.onUe fun u => u.decoded d (Decoding.run d.raw d.compressed (s.ue.state == .finishing) 1024 (s.ue.decoding d)).1

theorem decodeRun_paused
    (h : (Decoding.run d.raw d.compressed (s.ue.state == .finishing) 1024 (s.ue.decoding d)).2 = .paused) :
    s.decodeRun d = s.ran d := by
  unfold State.decodeRun State.ran
  generalize Decoding.run d.raw d.compressed (s.ue.state == .finishing) 1024 (s.ue.decoding d) = run at h ⊢
  obtain ⟨x, e⟩ := run
  cases h
  rfl

/-- The record's stream is over with every coded byte of its last piece used. -/
theorem decodeRun_over (hlast : (s.entryAt d.slot d.entry).last = true)
    (h : (Decoding.run d.raw d.compressed (s.ue.state == .finishing) 1024 (s.ue.decoding d)).2 = .over)
    (hfetched : d.fetched = d.pieceLength)
    (hused : (Decoding.run d.raw d.compressed (s.ue.state == .finishing) 1024 (s.ue.decoding d)).1.decoder.input = []) :
    s.decodeRun d = (s.ran d).finishDelivery := by
  unfold State.decodeRun State.ran
  generalize Decoding.run d.raw d.compressed (s.ue.state == .finishing) 1024 (s.ue.decoding d) = run at h hused ⊢
  obtain ⟨x, e⟩ := run
  cases h
  exact if_pos (by rw [hlast, show x.decoder.input = [] from hused, hfetched]; simp)

/-- The stream fails a check in the record's last piece. -/
theorem decodeRun_error (hlast : (s.entryAt d.slot d.entry).last = true)
    (h : (Decoding.run d.raw d.compressed (s.ue.state == .finishing) 1024 (s.ue.decoding d)).2 = .error) :
    s.decodeRun d = (s.ran d).passRecord d.slot d.entry (d.number, d.raw) .codingError none := by
  unfold State.decodeRun State.ran
  generalize Decoding.run d.raw d.compressed (s.ue.state == .finishing) 1024 (s.ue.decoding d) = run at h ⊢
  obtain ⟨x, e⟩ := run
  cases h
  exact if_pos hlast

/-! ### Hand-over (R97) -/

theorem exec_handover (h : s.handoverDue = some d) : exec .handover s = .next (s.tryHandover d).finish := by
  show execHandover s = _
  unfold execHandover
  rw [h] <;> rfl

/-- End of data settled with the window closed is reached at every stripe from it on. -/
theorem endReached_of_eod {r : ReadState} {e : EodFound} {n : Nat} (hr : s.tte.read = some r) (he : r.eod = some e)
    (hw : r.window = none) (hn : e.stripe ≤ n) : s.endReached n = true := by
  unfold State.endReached ReadState.end_
  rw [hr, Option.bind_some, hw, Option.isNone_none, if_pos rfl, he]
  exact decide_eq_true hn

/-- With no end of data found none is reached. -/
theorem endReached_of_none (n : Nat) (h : (s.tte.read.bind (·.eod)) = none) : s.endReached n = false := by
  unfold State.endReached
  cases hr : s.tte.read with
  | none => rfl
  | some r =>
    rw [hr, Option.bind_some] at h
    unfold ReadState.end_
    rw [Option.bind_some, h, ite_self]
    rfl

theorem tryHandover_ends (h : s.endReached (d.stripe + 1) = true) :
    s.tryHandover d =
      if d.passOver then s.failDelivery .codingError d.stripe else s.failDelivery .endOfData (d.stripe + 1) := by
  unfold State.tryHandover
  dsimp only
  rw [if_pos h]
  split <;> rfl

theorem tryHandover_taken {j : Nat} (h : s.endReached (d.stripe + 1) = false)
    (hbottom : s.spm.bottom = some (d.stripe + 1, j)) (hne : (s.slotAt j).state ≠ .readFailed) :
    s.tryHandover d = s.handTo d j := by
  unfold State.tryHandover
  dsimp only
  rw [if_neg (by rw [h]; exact Bool.false_ne_true), hbottom]
  dsimp only
  rw [if_neg (not_not_intro rfl), if_neg hne]

end

/-- Settles O60: the delivery's rows, its ends, and its hand-over. -/
theorem deliveriesMoveOn : Obligations.DeliveriesMoveOn := by
  unfold Obligations.DeliveriesMoveOn
  have opens {s : State} (hstate : s.ue.state = .opening) : exec .deliverySlotTaken s = .next s.tryOpen.finish :=
    if_pos hstate
  refine ⟨?taken, ?waits, ?atEnd, ?runsAhead, ?marker, ?lastPiece, ?compared, ?done, ?handover⟩
  case taken =>
    intro s hstate hjob hend p t i hp hbottom
    refine ⟨fun ht hne hnone => (opens hstate).trans (next_congr (congrArg State.finish ?_)),
      fun ht => (opens hstate).trans (next_congr (congrArg State.finish ?_))⟩
    · have hadmits : s.spm.admits .delivering = true := by
        unfold Spm.admits
        rw [hnone]
        rfl
      rw [tryOpen_eq hjob, hend]
      dsimp only
      rw [hp, hbottom]
      dsimp only
      rw [if_neg (not_not_intro ht), if_neg hne, if_pos hadmits, moveSlot_bottom hbottom hne hnone]
    · rw [tryOpen_eq hjob, hend]
      dsimp only
      rw [hp, hbottom]
      exact if_pos ht
  case waits =>
    intro s hstate hjob
    exact (opens hstate).trans (next_congr (congrArg State.finish (tryOpen_waits hjob)))
  case atEnd =>
    intro s p q id hstate hid hjob hend
    refine (opens hstate).trans (next_congr (congrArg State.finish ?_))
    rw [tryOpen_eq hjob, hend]
    exact endDelivery_of_some (s := s.onMc fun m => { m with dsPos := some q }) (p.record, 0) .endOfData none p.stripe hid
  case runsAhead =>
    intro s d hrec hpass hopen run hpaused
    have hfinishing : (s.ue.state == DeliveryState.finishing) = false := by rw [hopen]; rfl
    have hrun : Decoding.run d.raw d.compressed (s.ue.state == .finishing) 1024 (s.ue.decoding d) = run := by
      rw [hfinishing]
      rfl
    refine (exec_decodeStep hrec hpass (Or.inl hopen)).trans (next_congr (congrArg State.finish ?_))
    have houtput : (if s.ue.state = .finishing then [] else run.1.output) = run.1.output :=
      if_neg (by rw [hopen]; decide)
    rw [decodeRun_paused (hrun ▸ hpaused)]
    unfold State.ran
    rw [hrun]
    exact congrArg (fun l => { s with ue := { s.ue with
        decoder := run.1.decoder, crc := run.1.crc, output := l, record := some { d with produced := run.1.produced } } })
      houtput
  case marker =>
    intro s p t i m hstate hjob hend hp hbottom ht hfailed hm hmet
    refine (opens hstate).trans (next_congr (congrArg State.finish ?_))
    rw [tryOpen_eq hjob, hend]
    dsimp only
    rw [hp, hbottom]
    dsimp only
    rw [if_neg (not_not_intro ht), if_pos hfailed]
    unfold State.meetMarker
    rw [hm]
    exact if_neg (by rw [hmet]; exact Bool.false_ne_true)
  case lastPiece =>
    intro s d hrec hpass hstate run q e hlast
    refine ⟨fun hover hfetched hused => ?_, fun herror => ?_⟩
    · exact (exec_decodeStep hrec hpass hstate).trans (next_congr (congrArg State.finish (decodeRun_over hlast hover hfetched hused)))
    · exact (exec_decodeStep hrec hpass hstate).trans (next_congr (congrArg State.finish (decodeRun_error hlast herror)))
  case compared =>
    intro s d hrec hpass hall crc ends
    unfold State.finishDelivery
    rw [hrec]
    dsimp only
    rw [if_pos (by rw [hall, hpass]; rfl)]
    refine congrArg (ite _ _) ?_
    by_cases hcursor : s.ue.cursor = s.ue.length
    · rw [if_pos hcursor, if_neg (not_not_intro hcursor)]
    · rw [if_neg hcursor, if_pos hcursor]
  case done =>
    intro s id k hid hk done
    refine ⟨fun i e x r residual => ?_, fun r stripe => ⟨?_, ?_⟩⟩
    · intro t
      obtain ⟨hue, hci, hcw, hpos⟩ := passed_rest s i e x.1
      have ht : t.spm.slots = (s.passed i e x.1).spm.slots := congrArg Spm.slots (endDelivery_spm ..)
      refine ⟨endDelivery_done hue hci hcw hid hk .., ⟨s.advancedPos i e x.1, ?_, advancedPos_record ..⟩,
        fun hlast => ht.trans (passed_frees x.1 hlast), fun hmore n hn => ht.trans (passed_returns x.1 hmore hn)⟩
      exact (congrArg Mc.dsPos (endDelivery_mc ..)).trans hpos
    · obtain ⟨hue, hci, hcw, -⟩ := returnSlot_rest s
      exact endDelivery_done hue hci hcw hid hk ..
    · obtain ⟨-, -, -, hmc⟩ := returnSlot_rest s
      exact congrArg Mc.dsPos ((endDelivery_mc ..).trans hmc)
  case handover =>
    intro s d hdue
    refine ⟨fun r e hr he hw hle => (exec_handover hdue).trans (next_congr (congrArg State.finish ?_)),
      fun j hnone hbottom hne => (exec_handover hdue).trans (next_congr (congrArg State.finish ?_))⟩
    · exact tryHandover_ends (endReached_of_eod hr he hw hle)
    · exact tryHandover_taken (endReached_of_none _ hnone) hbottom hne

end Sys2Proof.Machine
end

section
/-! PROOFS. Sequences, conversions, result halves and sensor records (R133, R150 to R154): settles O46. -/

namespace Sys2Proof.Machine

/-! ### Sequences (R150) -/

/-- A sequence starts with its list and stamp, the fields in the words of R150. -/
theorem startSequence_eq (x : Ss) :
    x.startSequence =
      let onB := x.plan.alternate && x.nextB
      { x with
        stamp := (x.stamp + 1) % 4294967296
        nextB := x.plan.alternate && !x.nextB
        cursor := if onB then x.cursor else x.cursor.bind (nextScan x.plan.scan)
        sequence := some
          { onB := onB, next := 0, stamp := x.stamp
            entries := if onB then x.plan.listB
              else match x.cursor with | some c => x.plan.listA.dropLast ++ [c] | none => x.plan.listA } } := by
  have hnext : (if x.plan.alternate then !x.nextB else false) = (x.plan.alternate && !x.nextB) := by
    cases x.plan.alternate <;> rfl
  unfold Ss.startSequence
  dsimp only
  rw [hnext] <;> rfl

/-! ### The thermal guard (R133) -/

theorem note_mc (s : State) (k : NoteKind) (a b : Detail) : (s.note k a b).mc = s.mc := by
  unfold State.note State.tryRecord
  split
  · rfl
  · split <;> rfl

section
variable {s : State} {raw : Nat}

theorem thermal_normal_stays (h : s.mc.thermal = .normal) (hraw : raw ≤ 2880) : s.thermal raw = s := by
  unfold State.thermal
  rw [h]
  exact if_neg (Nat.not_lt.2 hraw)

theorem thermal_paused_stays (h : s.mc.thermal = .paused) (hraw : 2720 ≤ raw) : s.thermal raw = s := by
  unfold State.thermal
  rw [h]
  exact if_neg (Nat.not_lt.2 hraw)

theorem thermal_pauses (h : s.mc.thermal = .normal) (hraw : 2880 < raw) :
    s.thermal raw
      = ((s.onMc fun m => { m with thermal := .paused }).note .thermalPause (dv 2 raw ++ du 6) noDetail).pauseStreaming := by
  unfold State.thermal
  rw [h]
  exact if_pos hraw

theorem thermal_resumes (h : s.mc.thermal = .paused) (hraw : raw < 2720) :
    s.thermal raw =
      let u := (s.onMc fun m => { m with thermal := .normal }).note .thermalResume noDetail noDetail
      if s.spm.direction = .readOpen then u.onRg fun r => { r with readStart := r.readStart.ask, newRun := r.newRun || u.readStands }
      else u := by
  have hdir : ((s.onMc fun m => { m with thermal := .normal }).note .thermalResume noDetail noDetail).spm.direction
      = s.spm.direction := congrArg Spm.direction (State.note_spm ..)
  unfold State.thermal
  rw [h, ← hdir]
  exact if_pos hraw

/-- The pause of a tape that neither writes nor reads holds nothing. -/
theorem pauseStreaming_idle (hflight : s.tte.inFlight = none) (hdir : s.spm.direction ≠ .readOpen) : s.pauseStreaming = s := by
  unfold State.pauseStreaming
  rw [hflight]
  exact if_neg fun h => hdir h.1

/-- The pause of a tape that reads, with no reception in flight, stops it and asks for a start (R87, R114). -/
theorem pauseStreaming_reading {r : ReadState} (hflight : s.tte.inFlight = none) (hdir : s.spm.direction = .readOpen)
    (hm : s.mc.state = .streaming) (hslow : s.mc.slowing = false) (hr : s.tte.read = some r) (hx : r.reception = none)
    (hasked : r.asked = false) :
    s.pauseStreaming =
      { s with
        mc := { s.mc with slowing := true, atSpeed := false, runIn := false, decel := none }
        rg := { s.rg with stopKind := .none, readStart := .asked, held := none, newRun := true } } := by
  have hsame : ({ s with tte := { s.tte with read := some { r with asked := false } } } : State) = s := by
    rw [← hasked, ← hr]
  have hawait : s.rg.await .none .asked
      = { s.rg with stopKind := .none, readStart := .asked, held := none, newRun := true } := by
    unfold Rg.await
    rw [show (ReadAsk.asked == ReadAsk.asked) = true by decide, Bool.or_true]
  unfold State.pauseStreaming
  rw [hflight]
  dsimp only
  rw [if_pos ⟨hdir, hm, hslow⟩, abandonReception_of_none hr hx, hsame]
  exact congrArg (fun g => { s.onMc Mc.decelerate with rg := g }) hawait

theorem readStands_of_some {r : ReadState} (hr : s.tte.read = some r) :
    s.readStands = (s.mc.state == .ready && r.eod.isNone) := by
  unfold State.readStands
  rw [hr]
  rfl

theorem ask_eq (k : ReadAsk) : k.ask = if k = .threshold then .asked else k := by
  cases k <;> rfl

/-- The resume asks for a start of reading, and a tape that stands ready begins a new run with it (R114). -/
theorem resumed_asks {r : ReadState} {g : Rg} {m : MotionState} (hr : s.tte.read = some r) (hrg : s.rg = g)
    (hm : s.mc.state = m) :
    (s.onRg fun g => { g with readStart := g.readStart.ask, newRun := g.newRun || s.readStands })
      = { s with rg := { g with
          readStart := if g.readStart = .threshold then .asked else g.readStart
          newRun := g.newRun || (m == .ready && r.eod.isNone) } } := by
  subst hrg hm
  rw [readStands_of_some hr]
  exact congrArg
    (fun k => { s with rg := { s.rg with
      readStart := k, newRun := s.rg.newRun || (s.mc.state == MotionState.ready && r.eod.isNone) } })
    (ask_eq _)

end

/-! ### Result halves (R152) -/

section
variable {x : Ss} {i : Nat}

theorem half_setHalf_same (x : Ss) (i : Nat) (h : Half) : (x.setHalf i h).half i = h := by
  unfold Ss.setHalf Ss.half
  split <;> rfl

theorem half_setHalf_other (hi : i ≤ 1) (h : Half) : (x.setHalf i h).half (1 - i) = x.half (1 - i) := by
  interval_cases i <;> rfl

theorem fillingHalf_le (x : Ss) : x.fillingHalf ≤ 1 := by
  unfold Ss.fillingHalf
  split <;> omega

/-- The halves once half i is complete: the other one FILLING, this one as its record leaves it. -/
def Ss.turned (x : Ss) (i : Nat) (own : Half) : Ss := (x.setHalf (1 - i) { phase := .filling, results := [] }).setHalf i own

theorem turned_completed (hi : i ≤ 1) (rs : List SensorResult) (reclaim : Bool) :
    let y := x.setHalf i { x.half i with results := rs }
    ((if reclaim then y.drop else y).setHalf (1 - i) { phase := .filling, results := [] }).setHalf i
        { y.half i with phase := .awaitCopy }
      = { x.turned i { phase := .awaitCopy, results := rs } with
          drops := if reclaim then min 255 (x.drops + 1) else x.drops } := by
  interval_cases i <;> cases reclaim <;> rfl

theorem turned_dropped (hi : i ≤ 1) (rs : List SensorResult) (count : Nat) :
    ({ x.turned i { phase := .awaitCopy, results := rs } with drops := count } : Ss).drop.setHalf i { phase := .empty, results := [] }
      = { x.turned i { phase := .empty, results := [] } with drops := min 255 (count + 1) } := by
  interval_cases i <;> rfl

theorem turned_result (hi : i ≤ 1) (rs : List SensorResult) (count : Nat) :
    (({ x.turned i { phase := .awaitCopy, results := rs } with drops := count } : Ss).half i).results = rs := by
  interval_cases i <;> rfl

theorem turned_rest (hi : i ≤ 1) (own : Half) :
    (x.turned i own).plan = x.plan ∧ (x.turned i own).tail = x.tail ∧ (x.turned i own).head = x.head := by
  interval_cases i <;> exact ⟨rfl, rfl, rfl⟩

end

section
variable {s : State} {r : SensorResult} {i : Nat}

/-- The ring after half i is complete: the write of the half reclaimed is withdrawn. -/
def State.reclaimedRing (s : State) (i : Nat) : List RingReq :=
  if (s.ss.half (1 - i)).phase == .awaitCopy then
    s.bpu.ring.filter fun q => match q with | .sensor h _ => h != 1 - i | _ => true
  else s.bpu.ring

/-- The records dropped once half i is complete. -/
def State.reclaimedDrops (s : State) (i : Nat) : Nat :=
  if (s.ss.half (1 - i)).phase == .awaitCopy then min 255 (s.ss.drops + 1) else s.ss.drops

/-- The state once half i is complete with its results, before its record's fate is settled (R152). -/
def State.halfTurned (s : State) (i : Nat) (rs : List SensorResult) : State :=
  { s with
    ss := { s.ss.turned i { phase := .awaitCopy, results := rs } with drops := s.reclaimedDrops i }
    bpu := { s.bpu with ring := s.reclaimedRing i } }

theorem halfTurned_full (hi : i ≤ 1) (rs : List SensorResult) : (s.halfTurned i rs).sensorFull = s.sensorFull := by
  obtain ⟨-, htail, hhead⟩ := turned_rest (x := s.ss) hi { phase := .awaitCopy, results := rs }
  unfold State.sensorFull
  rw [show (s.halfTurned i rs).ss.head = s.ss.head from hhead, show (s.halfTurned i rs).ss.tail = s.ss.tail from htail]
  rfl

/-- A complete half is turned, and its record is formed or dropped at the full test. -/
theorem halfComplete_eq (hi : i ≤ 1) (rs : List SensorResult) :
    (s.onSs fun x => x.setHalf i { x.half i with results := rs }).halfComplete i =
      let t := s.halfTurned i rs
      if t.sensorFull then t.onSs fun x => (x.drop).setHalf i { phase := .empty, results := [] }
      else t.askRing (.sensor i (sensorRecord t.ss.plan i t.ss.drops (t.ss.half i).results)) := by
  let u : State := s.onSs fun x => x.setHalf i { x.half i with results := rs }
  let reclaim : Bool := (u.ss.half (1 - i)).phase == .awaitCopy
  let v : State := u.onSs fun x =>
    ((if reclaim then x.drop else x).setHalf (1 - i) { phase := .filling, results := [] }).setHalf i
      { x.half i with phase := .awaitCopy }
  have hother : reclaim = ((s.ss.half (1 - i)).phase == .awaitCopy) :=
    congrArg (fun h : Half => h.phase == .awaitCopy) (half_setHalf_other hi _)
  have hturned : (if reclaim then
      v.onBpu fun b => { b with ring := b.ring.filter fun r => match r with | .sensor h _ => h != 1 - i | _ => true }
      else v) = s.halfTurned i rs := by
    unfold State.halfTurned State.reclaimedDrops State.reclaimedRing
    rw [← hother]
    have hss : v.ss = _ := turned_completed hi rs reclaim
    have hv : v = { s with ss := v.ss } := rfl
    rw [hv, hss]
    cases reclaim <;> rfl
  exact congrArg (fun t : State =>
    if t.sensorFull then t.onSs fun x => (x.drop).setHalf i { phase := .empty, results := [] }
    else t.askRing (.sensor i (sensorRecord t.ss.plan i t.ss.drops (t.ss.half i).results))) hturned

theorem addResult_eq (s : State) (r : SensorResult) :
    s.addResult r =
      let i := s.ss.fillingHalf
      let rs := (s.ss.half i).results ++ [r]
      let t := s.onSs fun x => x.setHalf i { x.half i with results := rs }
      if s.ss.plan.batch ≤ rs.length then t.halfComplete i else t := by
  unfold State.addResult
  dsimp only
  rw [show ((s.onSs fun x => x.setHalf s.ss.fillingHalf
      { x.half s.ss.fillingHalf with results := (x.half s.ss.fillingHalf).results ++ [r] }).ss.half s.ss.fillingHalf).results
        = (s.ss.half s.ss.fillingHalf).results ++ [r] from congrArg Half.results (half_setHalf_same ..)]
  rfl

/-- A result that does not complete its half joins it. -/
theorem addResult_joins (h : ((s.ss.half s.ss.fillingHalf).results ++ [r]).length < s.ss.plan.batch) :
    s.addResult r = { s with
      ss := s.ss.setHalf s.ss.fillingHalf
        { s.ss.half s.ss.fillingHalf with results := (s.ss.half s.ss.fillingHalf).results ++ [r] } } :=
  (addResult_eq s r).trans (if_neg (Nat.not_le.2 h))

/-- The result that completes a half has its record asked for. -/
theorem addResult_formed (h : s.ss.plan.batch ≤ ((s.ss.half s.ss.fillingHalf).results ++ [r]).length)
    (hroom : s.sensorFull = false) :
    s.addResult r =
      { s with
        ss := { s.ss.turned s.ss.fillingHalf
            { phase := .awaitCopy, results := (s.ss.half s.ss.fillingHalf).results ++ [r] } with
          drops := s.reclaimedDrops s.ss.fillingHalf }
        bpu := { s.bpu with ring := s.reclaimedRing s.ss.fillingHalf ++
          [.sensor s.ss.fillingHalf (sensorRecord s.ss.plan s.ss.fillingHalf (s.reclaimedDrops s.ss.fillingHalf)
            ((s.ss.half s.ss.fillingHalf).results ++ [r]))] } } := by
  have hi := fillingHalf_le s.ss
  generalize hrs : (s.ss.half s.ss.fillingHalf).results ++ [r] = rs at h ⊢
  have hplan : (s.halfTurned s.ss.fillingHalf rs).ss.plan = s.ss.plan := (turned_rest hi _).1
  have hresults : ((s.halfTurned s.ss.fillingHalf rs).ss.half s.ss.fillingHalf).results = rs := turned_result hi rs _
  rw [addResult_eq]
  dsimp only
  rw [hrs, if_pos h, halfComplete_eq hi]
  dsimp only
  rw [halfTurned_full hi, hroom, if_neg Bool.false_ne_true, hplan, hresults]
  rfl

/-- The result that completes a half with the ring full drops its record. -/
theorem addResult_dropped (h : s.ss.plan.batch ≤ ((s.ss.half s.ss.fillingHalf).results ++ [r]).length)
    (hfull : s.sensorFull = true) :
    s.addResult r =
      { s with
        ss := { s.ss.turned s.ss.fillingHalf { phase := .empty, results := [] } with
          drops := min 255 (s.reclaimedDrops s.ss.fillingHalf + 1) }
        bpu := { s.bpu with ring := s.reclaimedRing s.ss.fillingHalf } } := by
  have hi := fillingHalf_le s.ss
  generalize hrs : (s.ss.half s.ss.fillingHalf).results ++ [r] = rs at h ⊢
  rw [addResult_eq]
  dsimp only
  rw [hrs, if_pos h, halfComplete_eq hi]
  dsimp only
  rw [halfTurned_full hi, hfull, if_pos rfl, ← turned_dropped hi rs]
  rfl

/-! ### The SENSOR ring (R154) -/

theorem sensorFull_iff (s : State) :
    s.sensorFull = true ↔
      s.ringSlots .sensor 32 = 0 ∨ s.ringSlots .sensor 32 ≤ s.ss.head
        ∨ (s.ss.tail + 1) % s.ringSlots .sensor 32 = s.ss.head := by
  unfold State.sensorFull
  simp only [Bool.or_eq_true, beq_iff_eq, decide_eq_true_eq, or_assoc]

theorem writeSensor_eq (i : Nat) (bytes : List Byte) (hn : s.ringSlots .sensor 32 ≠ 0) :
    s.writeSensor i bytes =
      { s with
        dram := Memory.writeBytes s.dram (s.ringAddr .sensor 32 s.ss.tail) bytes
        ss := { s.ss.setHalf i { phase := .empty, results := [] } with
          tail := (s.ss.tail + 1) % s.ringSlots .sensor 32, drops := 0 } } :=
  if_neg hn

end

/-! ### Sensor records (R153) -/

section

theorem fieldAt_append_left {a : List Byte} {k n : Nat} (b : List Byte) (h : k + n ≤ a.length) :
    fieldAt (a ++ b) k n = fieldAt a k n := by
  unfold fieldAt
  rw [List.drop_append_of_le_length (by omega), List.take_append_of_le_length (by rw [List.length_drop]; omega)]

theorem fieldAt_append_right {a : List Byte} {k j : Nat} (b : List Byte) (n : Nat) (hk : k = a.length + j) :
    fieldAt (a ++ b) k n = fieldAt b j n := by
  unfold fieldAt
  rw [hk, ← List.drop_drop, List.drop_left]

theorem inputPairs_length : ∀ l : List Nat, (inputPairs l).length = (l.length + 1) / 2
  | [] => rfl
  | [a] => by simp [inputPairs]
  | a :: b :: l => by
    rw [inputPairs, List.length_cons, inputPairs_length l]
    simp only [List.length_cons]
    omega

/-- Each input is read back from its place in its byte, the lower place in the low bits. -/
theorem inputPairs_read : ∀ (l : List Nat) (k x : Nat), l[k]? = some x → x < 16 →
    (if k % 2 = 0 then ((inputPairs l).getD (k / 2) 0).toNat % 16 else ((inputPairs l).getD (k / 2) 0).toNat / 16) = x
  | [], k, x, h, _ => nomatch h
  | [a], 0, x, h, hx => by
    obtain rfl : a = x := Option.some.inj h
    show (BitVec.ofNat 8 (a % 16)).toNat % 16 = a
    rw [BitVec.toNat_ofNat]
    omega
  | [a], k + 1, x, h, _ => nomatch h
  | a :: b :: l, 0, x, h, hx => by
    obtain rfl : a = x := Option.some.inj h
    show (BitVec.ofNat 8 (a % 16 + 16 * (b % 16))).toNat % 16 = a
    rw [BitVec.toNat_ofNat]
    omega
  | a :: b :: l, 1, x, h, hx => by
    obtain rfl : b = x := Option.some.inj h
    show (BitVec.ofNat 8 (a % 16 + 16 * (b % 16))).toNat / 16 = b
    rw [BitVec.toNat_ofNat]
    omega
  | a :: b :: l, k + 2, x, h, hx => by
    rw [Nat.add_mod_right, Nat.add_div_right k (by decide)]
    exact inputPairs_read l k x h hx

/-- Two-byte values in a row: the k-th is read at byte 2k. -/
theorem fieldAt_flatMap {α : Type} {f : α → List Byte} (hf : ∀ a, (f a).length = 2) (rest : List Byte) :
    ∀ (l : List α) (k : Nat) (a : α), l[k]? = some a → fieldAt (l.flatMap f ++ rest) (2 * k) 2 = ofLe (f a)
  | [], k, a, h => nomatch h
  | b :: l, 0, a, h => by
    obtain rfl : b = a := Option.some.inj h
    rw [List.flatMap_cons, List.append_assoc, fieldAt_append_left _ (by rw [hf]), fieldAt, List.drop_zero,
      List.take_of_length_le (by rw [hf])]
  | b :: l, k + 1, a, h => by
    rw [List.flatMap_cons, List.append_assoc, fieldAt_append_right (j := 2 * k) _ _ (by rw [hf]; omega)]
    exact fieldAt_flatMap hf rest l k a h

/-- A raw value in the record's format (R153), the signed one offset by half the range. -/
theorem sensorValue_eq (signed : Bool) (raw : Nat) :
    sensorValue signed raw = if signed then (16 * raw + 32768) % 65536 else 16 * raw := by
  unfold sensorValue
  split <;> omega

/-- The eight bytes that begin a sensor record. -/
def sensorHead (half drops : Nat) (rs : List SensorResult) : List Byte :=
  let first := rs.headD { input := 0, raw := 0, onB := false, entry := 0, stamp := 0 }
  toLe 4 first.stamp ++ toLe 1 half ++ toLe 1 rs.length ++ toLe 1 (first.entry % 8 + (if first.onB then 128 else 0))
    ++ toLe 1 drops

/-- The values of a sensor record, two bytes each. -/
def sensorValues (plan : Plan) (rs : List SensorResult) : List Byte :=
  rs.flatMap fun r => toLe 2 (sensorValue (plan.signed.contains r.input) r.raw)

theorem sensorRecord_eq (plan : Plan) (half drops : Nat) (rs : List SensorResult) :
    sensorRecord plan half drops rs =
      sensorHead half drops rs ++ (inputPairs (rs.map (·.input) ++ List.replicate (8 - rs.length) 0)
        ++ (sensorValues plan rs ++ (zeros (2 * (8 - rs.length)) ++ zeros 4))) := by
  unfold sensorRecord sensorHead sensorValues
  simp only [List.append_assoc]

theorem sensorHead_length (half drops : Nat) (rs : List SensorResult) : (sensorHead half drops rs).length = 8 := rfl

theorem sensorValues_length (plan : Plan) (rs : List SensorResult) : (sensorValues plan rs).length = 2 * rs.length := by
  unfold sensorValues
  induction rs with
  | nil => rfl
  | cons r rs ih => rw [List.flatMap_cons, List.length_append, ih, toLe_length, List.length_cons]; omega

variable {plan : Plan} {half drops : Nat} {r : SensorResult} {rs : List SensorResult}

theorem sensorInputs_length (h : rs.length ≤ 8) :
    (inputPairs (rs.map (·.input) ++ List.replicate (8 - rs.length) 0)).length = 4 := by
  rw [inputPairs_length, List.length_append, List.length_map, List.length_replicate]
  omega

theorem sensorRecord_length (h : rs.length ≤ 8) : (sensorRecord plan half drops rs).length = 32 := by
  rw [sensorRecord_eq]
  simp only [List.length_append, sensorHead_length, sensorInputs_length h, sensorValues_length, zeros, List.length_replicate]
  omega

/-- The record's first fields. -/
theorem sensorRecord_head (hlen : (r :: rs).length ≤ 8) (hhalf : half ≤ 1) (hdrops : drops ≤ 255) (hstamp : r.stamp < 4294967296)
    (hentry : r.entry ≤ 7) :
    let b := sensorRecord plan half drops (r :: rs)
    fieldAt b 0 4 = r.stamp ∧ fieldAt b 4 1 = half ∧ fieldAt b 5 1 = (r :: rs).length
      ∧ fieldAt b 6 1 = r.entry + (if r.onB then 128 else 0) ∧ fieldAt b 7 1 = drops := by
  have hflag : r.entry % 8 + (if r.onB then 128 else 0) = r.entry + (if r.onB then 128 else 0) := by
    rw [Nat.mod_eq_of_lt (by omega)]
  have hbyte : r.entry + (if r.onB then 128 else 0) < 256 ^ 1 := by split <;> omega
  intro b
  have hfield (k n : Nat) (hk : k + n ≤ 8) : fieldAt b k n = fieldAt (sensorHead half drops (r :: rs)) k n := by
    rw [show b = _ from sensorRecord_eq .., fieldAt_append_left _ (by rw [sensorHead_length]; exact hk)]
  rw [hfield 0 4 (by decide), hfield 4 1 (by decide), hfield 5 1 (by decide), hfield 6 1 (by decide), hfield 7 1 (by decide)]
  refine ⟨?_, ?_, ?_, ?_, ?_⟩
  · exact ofLe_toLe_of_lt (n := 4) hstamp
  · exact ofLe_toLe_of_lt (n := 1) (by omega)
  · exact ofLe_toLe_of_lt (n := 1) (by omega)
  · exact (ofLe_toLe_of_lt (n := 1) (show r.entry % 8 + (if r.onB then 128 else 0) < _ by rw [hflag]; exact hbyte)).trans hflag
  · exact ofLe_toLe_of_lt (n := 1) (by omega)

/-- Each result's input and value. -/
theorem sensorRecord_result {x : SensorResult} {k : Nat} (hlen : rs.length ≤ 8) (hx : rs[k]? = some x) (hinput : x.input ≤ 11)
    (hraw : x.raw ≤ 4095) :
    let b := sensorRecord plan half drops rs
    (if k % 2 = 0 then fieldAt b (8 + k / 2) 1 % 16 else fieldAt b (8 + k / 2) 1 / 16) = x.input
    ∧ fieldAt b (12 + 2 * k) 2 = if plan.signed.contains x.input then (16 * x.raw + 32768) % 65536 else 16 * x.raw := by
  have hk : k < rs.length := (List.getElem?_eq_some_iff.1 hx).1
  have hinputs := sensorInputs_length hlen
  intro b
  have hb : b = _ := sensorRecord_eq plan half drops rs
  constructor
  · have hbyte : fieldAt b (8 + k / 2) 1
        = ((inputPairs (rs.map (·.input) ++ List.replicate (8 - rs.length) 0)).getD (k / 2) 0).toNat := by
      rw [hb, fieldAt_append_right (j := k / 2) _ _ (by rw [sensorHead_length]),
        fieldAt_append_left _ (by rw [hinputs]; omega), fieldAt_one]
    have hget : (rs.map (·.input) ++ List.replicate (8 - rs.length) 0)[k]? = some x.input := by
      rw [List.getElem?_append_left (by rw [List.length_map]; exact hk), List.getElem?_map, hx]
      rfl
    rw [hbyte]
    exact inputPairs_read _ k x.input hget (by omega)
  · have hvalue : sensorValue (plan.signed.contains x.input) x.raw < 256 ^ 2 := by
      rw [sensorValue_eq]
      split <;> omega
    rw [hb, fieldAt_append_right (j := 4 + 2 * k) _ _ (by rw [sensorHead_length]; omega),
      fieldAt_append_right (j := 2 * k) _ _ (by rw [hinputs]), sensorValues, fieldAt_flatMap (fun _ => toLe_length 2 _) _ rs k x hx,
      ofLe_toLe_of_lt hvalue, sensorValue_eq]

end

/-! ### Conversions (R151) -/

section
variable {s : State} {q : Sequence} {raw : BitVec 12}

theorem exec_conversionDone (hq : s.ss.sequence = some q) :
    exec (.conversionDone raw) s = .next (s.converted q raw.toNat).finish := by
  show execConversionDone raw s = _
  unfold execConversionDone
  rw [hq] <;> rfl

/-- A conversion's value and the sequence that goes on. -/
def State.latched (s : State) (q : Sequence) (raw : Nat) : State :=
  { s with ss := { s.ss with
      latest := s.ss.latest.set (q.entries.getD q.next 0) (some (raw, q.stamp))
      sequence := if q.next + 1 < q.entries.length then some { q with next := q.next + 1 } else none } }

/-- A conversion of another input than the head temperature moves the torques with its tension sample. -/
theorem converted_of_other (hne : q.entries.getD q.next 0 ≠ 8) (raw : Nat) :
    s.converted q raw =
      let e := s.latched q raw
      let arm (i : Nat) : Nat := ((e.ss.latest.getD i none).map (·.1)).getD 0
      State.addResult { e with mc := if tensionPair q then s.mc.sample (arm 2) (arm 3) else s.mc }
        { input := q.entries.getD q.next 0, raw := raw, onB := q.onB, entry := q.next, stamp := q.stamp } := by
  unfold State.converted
  dsimp only
  rw [if_neg hne]
  cases tensionPair q <;> rfl

/-- A conversion of the head temperature goes to the thermal guard. -/
theorem converted_of_head (hinput : q.entries.getD q.next 0 = 8) (hpair : tensionPair q = false) (raw : Nat) :
    s.converted q raw =
      ((s.latched q raw).thermal raw).addResult { input := 8, raw := raw, onB := q.onB, entry := q.next, stamp := q.stamp } := by
  unfold State.converted State.latched
  dsimp only
  rw [if_pos hinput, hpair, hinput]
  rfl

end

/-- Settles O46: sequences, conversions, halves, the ring, records and the thermal pause each by its lemmas. -/
theorem sequencesAndConversions : Obligations.SequencesAndConversions := by
  unfold Obligations.SequencesAndConversions
  refine ⟨?sequence, ?sample, ?head, ?halves, ?ring, ?record, ?paused⟩
  case sequence =>
    intro s e onB
    refine next_congr (congrArg State.finish ?_)
    exact congrArg (fun x : Ss => { e with ss := { x with period := s.ss.plan.period * 400 } }) (startSequence_eq e.ss)
  case sample =>
    intro s q raw hq hne input latest arm
    exact (exec_conversionDone hq).trans (next_congr (congrArg State.finish (converted_of_other hne raw.toNat)))
  case head =>
    intro s q raw hq hinput hpair e turned taken
    have he : s.latched q raw.toNat = e := by
      unfold State.latched
      rw [hinput]
    have hrow {u : State} (h : e.thermal raw.toNat = u) : exec (.conversionDone raw) s = taken u := by
      rw [← h, ← he]
      exact (exec_conversionDone hq).trans (next_congr (congrArg State.finish (converted_of_head hinput hpair raw.toNat)))
    refine ⟨?_, fun hnormal hraw hflight hdir => hrow ?_, ?_, fun hpaused hraw hdir => hrow ?_, fun r hpaused hraw hdir hr => hrow ?_⟩
    · rintro (⟨hnormal, hraw⟩ | ⟨hpaused, hraw⟩)
      · exact hrow (thermal_normal_stays (s := e) hnormal hraw)
      · exact hrow (thermal_paused_stays (s := e) hpaused hraw)
    · refine (thermal_pauses (s := e) hnormal hraw).trans (pauseStreaming_idle ?_ ?_)
      · rw [State.note_tte]
        exact hflight
      · rw [State.note_spm]
        exact hdir
    · intro r hnormal hraw hflight hdir hm hslow hr hx hasked u
      have htte : u.tte = s.tte := State.note_tte ..
      have hspm : u.spm = s.spm := State.note_spm ..
      have hmc : u.mc = { s.mc with thermal := .paused } := note_mc ..
      have hrg : u.rg = s.rg := State.note_rg ..
      refine hrow ((thermal_pauses (s := e) hnormal hraw).trans ?_)
      rw [← hrg]
      exact pauseStreaming_reading (s := u) (htte ▸ hflight) (hspm ▸ hdir) (by rw [hmc]; exact hm) (by rw [hmc]; exact hslow)
        (htte ▸ hr) hx hasked
    · exact (thermal_resumes (s := e) hpaused hraw).trans (if_neg hdir)
    · have hreading : ((turned .normal).note .thermalResume noDetail noDetail).tte.read = some r := by
        rw [State.note_tte]
        exact hr
      have hstate : ((turned .normal).note .thermalResume noDetail noDetail).mc.state = s.mc.state := by
        rw [note_mc]
      exact (thermal_resumes (s := e) hpaused hraw).trans ((if_pos hdir).trans
        (resumed_asks hreading (State.note_rg ..) hstate))
  case halves =>
    intro s r i results reclaim drops count ring turned
    exact ⟨addResult_joins, addResult_formed, addResult_dropped⟩
  case ring =>
    intro s n
    exact ⟨sensorFull_iff s, fun i bytes hn => writeSensor_eq i bytes hn⟩
  case record =>
    intro plan half drops r rs hlen hhalf hdrops hstamp hentry b
    obtain ⟨h0, h4, h5, h6, h7⟩ := sensorRecord_head (plan := plan) hlen hhalf hdrops hstamp hentry
    exact ⟨sensorRecord_length hlen, h0, h4, h5, h6, h7, fun k x hx hinput hraw => sensorRecord_result hlen hx hinput hraw⟩
  case paused =>
    intro s hpaused
    have hmay : s.mayArm = false := by simp [State.mayArm, hpaused]
    have hready : s.standsReady = false := by simp [State.standsReady, hpaused]
    have hnormal : s.mc.thermal ≠ .normal := by rw [hpaused]; decide
    have hnot : ¬s.standsReady = true := by rw [hready]; exact Bool.false_ne_true
    refine ⟨?_, ?_, ?_, ?_⟩
    · show execArmStripe s = _
      unfold execArmStripe
      split
      · rfl
      · exact if_pos hmay
    · show execReadPositionStart s = _
      unfold execReadPositionStart
      split
      · exact if_neg fun h => hnormal h.2.2.1
      · rfl
    · show execGovernorStart s = _
      unfold execGovernorStart
      split
      · exact if_neg fun h => hnot h.2.1
      · rfl
    · show execReadAheadResume s = _
      unfold execReadAheadResume
      split
      · exact if_neg fun h => hnot h.2.2.1
      · rfl

end Sys2Proof.Machine
end

section
/-! PROOFS. Transactions of the cartridge memory link (R63, R64, R135, R136, R139, R140, R147, R168): settles O38. -/

namespace Sys2Proof.Machine

section
variable {s : State} {op : LinkOp} {t : Transaction} {rest : List Transaction} {k : Nat}

/-! ### Outcomes (R135) -/

/-- The outcome of the transaction in progress goes to its operation. -/
theorem exec_i2cTransactionDone (outcome : LinkOutcome) (hop : s.cml.op = some op) (hwait : op.wait = none)
    (hsteps : op.steps = t :: rest) :
    exec (.i2cTransactionDone outcome) s = .next (s.linkOutcome op t rest outcome).finish := by
  show execI2cTransactionDone outcome s = _
  unfold execI2cTransactionDone
  rw [hop]
  dsimp only
  rw [hwait, hsteps] <;> rfl

/-- The wait's end sends the transaction again. -/
theorem exec_i2cRetryWaitExpiry {n : Nat} (hop : s.cml.op = some op) (hwait : op.wait = some n) :
    exec .i2cRetryWaitExpiry s = .next (State.finish
      { s.elapse n with cml := { (s.elapse n).cml with op := some { op with wait := none } } }) := by
  have hagain : (s.elapse n).cml.op.map (fun o => { o with wait := none }) = some { op with wait := none } := by
    show (s.cml.op.map fun o => { o with wait := o.wait.map (· - n) }).map (fun o => { o with wait := none }) = _
    rw [hop]
    rfl
  show execI2cRetryWaitExpiry s = _
  unfold execI2cRetryWaitExpiry
  rw [show s.cml.op.bind (·.wait) = some n by rw [hop]; exact hwait]
  exact next_congr (congrArg
    (fun o => State.finish { s.elapse n with cml := { (s.elapse n).cml with op := o } }) hagain)

theorem linkNoAck_again (t : Transaction) (h : op.retries < 3) :
    s.linkNoAck op t
      = { s with cml := { s.cml with op := some { op with retries := op.retries + 1, wait := some 2000 } } } :=
  if_pos h

theorem linkNoAck_fails (t : Transaction) (h : 3 ≤ op.retries) : s.linkNoAck op t = s.linkFailed op t :=
  if_neg (Nat.not_lt.2 h)

/-! ### Acknowledged transactions (R135, R139) -/

/-- A read within an operation gives its bytes, and the next transaction is sent. -/
theorem linkAck_read_next (a n : Nat) (hgot : op.got ≠ []) (hrest : rest ≠ []) :
    s.linkAck op (.read a n) rest =
      { s with cml := { s.cml with
          op := some { op with steps := rest, retries := 0, got := op.got ++ Memory.readBytes s.cartridge a n } } } := by
  unfold State.linkAck
  dsimp only
  rw [if_neg fun h => hgot h.2, if_neg (by simpa using hrest)]
  rfl

/-- The last read of an operation ends it. -/
theorem linkAck_read_last (a n : Nat) (hgot : op.got ≠ []) :
    s.linkAck op (.read a n) [] =
      s.linkDone { op with steps := [], retries := 0, got := op.got ++ Memory.readBytes s.cartridge a n } := by
  unfold State.linkAck
  dsimp only
  rw [if_neg fun h => hgot h.2]
  rfl

/-- A page write of another operation than a load read programs its page, and the next transaction is sent. -/
theorem linkAck_write_next (k : Nat) (hkind : op.kind ≠ .loadRead) (hrest : rest ≠ []) :
    s.linkAck op (.write k) rest =
      { s with cml := { s.cml with op := some { op with steps := rest, retries := 0 } }
               cartridge := Memory.writeBytes s.cartridge (64 * k) (s.pageBytes op.kind k) } := by
  unfold State.linkAck
  dsimp only
  rw [if_neg fun h => hkind h.1, if_neg (by simpa using hrest)]
  rfl

/-- The last page write of an operation ends it. -/
theorem linkAck_write_last (k : Nat) (hkind : op.kind ≠ .loadRead) :
    s.linkAck op (.write k) [] = (s.program op.kind k).linkDone { op with steps := [], retries := 0 } := by
  unfold State.linkAck
  dsimp only
  rw [if_neg fun h => hkind h.1]
  rfl

/-! ### The load read (R139) -/

theorem readBytes_length (m : List Host.Cell) : ∀ a n, (Memory.readBytes m a n).length = n
  | _, 0 => rfl
  | a, n + 1 => congrArg (· + 1) (readBytes_length m (a + 1) n)

/-- The copies that the whole first block forms. -/
theorem readFirst_whole (c : Cml) {b : List Byte} (input : Bool) (hb : b.length = 192) :
    c.readFirst b input =
      { c with
        identity := some
          { kind := fieldAt b 0 1, echo := fieldAt b 1 1, input := input, serial := (b.drop 2).take 32 }
        counters := some { loads := fieldAt b 64 4, uses := fieldAt b 68 2 }
        dirty := { Dirty.clean with identity := fieldAt b 1 1 != (if input then 1 else 0) } } :=
  if_neg (by omega)

/-- The first block of a load read goes on by the kind and the header it gives. -/
theorem linkAck_first (hkind : op.kind = .loadRead) (hgot : op.got = []) :
    s.linkAck op (.read 0 192) rest =
      let b := Memory.readBytes s.cartridge 0 192
      let header := (b.drop 128).take 64
      let formed := s.cml.readFirst b s.pins.writeProtect
      if fieldAt b 0 1 = 2 then State.afterLoadRead { s with cml := formed.noDirectory .cleaning .unknown }
      else if fieldAt b 0 1 = 1 ∧ headerUsable header = true then
        { s with cml := { formed with
            op := some { op with steps := directoryBlocks (fieldAt header 12 2), retries := 0, got := b } } }
      else State.afterLoadRead { s with cml := formed.noDirectory .data .unknown } := by
  unfold State.linkAck
  dsimp only
  rw [hgot, List.nil_append]
  exact if_pos ⟨hkind, rfl⟩

theorem fieldAt_block (b : List Byte) : fieldAt ((b.drop 128).take 64) 0 1 = fieldAt b 128 1 := by
  unfold fieldAt
  rw [List.drop_zero, List.take_take]
  rfl

/-- A load read that is over has the directory, VALID or STALE by its flag. -/
theorem fullRead_eq (c : Cml) (b : List Byte) :
    c.fullRead b =
      { c with
        condition := if fieldAt b 128 1 = 1 then .valid else .stale
        recorded := if fieldAt b 128 1 = 1 then .valid else .notValid
        kind := .data, op := none
        directory := some (directoryOf ((b.drop 128).take 64) ((b.drop 192).take 13312) (b.drop 13504)) } := by
  unfold Cml.fullRead
  dsimp only
  rw [fieldAt_block]
  simp only [beq_iff_eq]

theorem linkDone_loadRead (hkind : op.kind = .loadRead) :
    s.linkDone op = (s.onCml fun c => c.fullRead op.got).afterLoadRead := by
  unfold State.linkDone
  rw [hkind]

/-! ### The other operations' ends (R63, R140, R147) -/

theorem linkDone_invalidate {id : Nat} (hkind : op.kind = .invalidate id) : s.linkDone op = s.afterInvalidate id op.aborted true := by
  unfold State.linkDone
  rw [hkind]

theorem linkDone_counters (hkind : op.kind = .counters) : s.linkDone op = s.afterCounters true := by
  unfold State.linkDone
  rw [hkind]

theorem linkDone_save (hkind : op.kind = .save) : s.linkDone op = s.saved := by
  unfold State.linkDone
  rw [hkind]

/-- The invalidation write ends with the re-check, and opens the session or completes OPEN_WRITE. -/
theorem afterInvalidate_done (id : Nat) (aborted : Bool) :
    s.afterInvalidate id aborted true =
      let u : State := { s with cml := { s.cml with op := none, recorded := .notValid } }
      if aborted = true ∨ s.saveWaits = true then u.completeBare id .aborted
      else match u.openWriteCheck with
        | some r => u.completeBare id r
        | none => u.openSession id := by
  unfold State.afterInvalidate
  dsimp only
  rw [show (s.onCml fun c => { c with op := none, recorded := if true then .notValid else .unknown }).saveWaits = s.saveWaits
    from rfl]
  simp only [Bool.or_eq_true]
  rfl

/-- The save leaves the link by the condition, and answers the UNLOAD with its code. -/
theorem saved_eq (s : State) :
    s.saved =
      match s.cml.condition with
      | .valid => State.afterSave { s with cml := { s.cml with op := none, dirty := Dirty.clean, recorded := .valid } } 0
      | .stale => State.afterSave
          { s with cml := { s.cml with
              op := none, dirty := { s.cml.dirty with identity := false, counters := false }, recorded := .notValid } } 3
      | .absent => State.afterSave { s with cml := { s.cml with op := none, recorded := .unknown } } 2 := by
  unfold State.saved
  cases s.cml.condition <;> rfl

theorem afterSave_of_other (code : Nat) (h : ∀ j, s.mc.job = some j → j.kind ≠ .unload ∨ j.stage ≠ .saving) :
    s.afterSave code = s := by
  unfold State.afterSave
  cases hj : s.mc.job with
  | none => rfl
  | some j => exact if_neg fun hboth => (h j hj).elim (· hboth.1) (· hboth.2)

theorem afterSave_of_unload {j : Job} (code : Nat) (hj : s.mc.job = some j) (hkind : j.kind = .unload)
    (hstage : j.stage = .saving) : s.afterSave code = s.setJob { j with stage := .rewinding, saveCode := code } := by
  unfold State.afterSave
  rw [hj]
  exact if_pos ⟨hkind, hstage⟩

end

/-- Settles O38: each outcome of a transaction, and how each operation ends. -/
theorem linkTransactions : Obligations.LinkTransactions := by
  unfold Obligations.LinkTransactions
  intro s op hop
  refine ⟨fun t rest hwait hsteps => ?_, fun n hwait => exec_i2cRetryWaitExpiry hop hwait⟩
  have hrow (outcome : LinkOutcome) := exec_i2cTransactionDone outcome hop hwait hsteps
  intro again
  refine ⟨fun hfew => ?again, ?stopped, fun hmany => ?failed, ?read, ?write, ?first, ?last, ?ended⟩
  case again => exact (hrow _).trans (next_congr (congrArg State.finish (linkNoAck_again t hfew)))
  case stopped =>
    rintro k hfew rfl
    exact (hrow _).trans (next_congr (congrArg State.finish (linkNoAck_again (s := s.program op.kind k) (.write k) hfew)))
  case failed => exact (hrow _).trans (next_congr (congrArg State.finish (linkNoAck_fails t hmany)))
  case read =>
    rintro a n rfl hgot hrest
    exact (hrow .ack).trans (next_congr (congrArg State.finish (linkAck_read_next a n hgot hrest)))
  case write =>
    rintro k rfl hkind hrest
    exact (hrow .ack).trans (next_congr (congrArg State.finish (linkAck_write_next k hkind hrest)))
  case first =>
    rintro rfl hkind hgot b header formed none_
    have hformed : s.cml.readFirst b s.pins.writeProtect = formed := readFirst_whole _ _ (readBytes_length ..)
    refine (hrow .ack).trans (next_congr (congrArg State.finish ((linkAck_first hkind hgot).trans ?_)))
    dsimp only
    rw [show s.cml.readFirst (Memory.readBytes s.cartridge 0 192) s.pins.writeProtect = formed from hformed]
    rfl
  case last =>
    rintro a n rfl hkind hgot rfl b
    refine (hrow .ack).trans (next_congr (congrArg State.finish ((linkAck_read_last a n hgot).trans ?_)))
    refine (linkDone_loadRead (op := { op with steps := [], retries := 0, got := b }) hkind).trans ?_
    exact congrArg (fun c => State.afterLoadRead { s with cml := c }) (fullRead_eq s.cml b)
  case ended =>
    rintro k rfl rfl e
    have hended (hkind : op.kind ≠ .loadRead) : exec (.i2cTransactionDone .ack) s
        = .next ((s.program op.kind k).linkDone { op with steps := [], retries := 0 }).finish :=
      (hrow .ack).trans (next_congr (congrArg State.finish (linkAck_write_last k hkind)))
    refine ⟨fun id hkind => ?_, fun hkind => ?_, fun hkind hother => ?_, fun j hkind hj hunload hsaving => ?_⟩
    · intro u
      refine (hended (by rw [hkind]; exact nofun)).trans (next_congr (congrArg State.finish ?_))
      rw [linkDone_invalidate (id := id) (op := { op with steps := [], retries := 0 }) hkind]
      exact afterInvalidate_done (s := s.program op.kind k) id op.aborted
    · refine (hended (by rw [hkind]; exact nofun)).trans (next_congr (congrArg State.finish ?_))
      exact linkDone_counters (op := { op with steps := [], retries := 0 }) hkind
    · refine (hended (by rw [hkind]; exact nofun)).trans (next_congr (congrArg State.finish ?_))
      rw [linkDone_save (op := { op with steps := [], retries := 0 }) hkind, saved_eq]
      show (match s.cml.condition with | .valid => _ | .stale => _ | .absent => _) = _
      cases s.cml.condition
      all_goals exact afterSave_of_other _ hother
    · refine (hended (by rw [hkind]; exact nofun)).trans (next_congr (congrArg State.finish ?_))
      rw [linkDone_save (op := { op with steps := [], retries := 0 }) hkind, saved_eq]
      show (match s.cml.condition with | .valid => _ | .stale => _ | .absent => _) = _
      cases s.cml.condition
      all_goals exact afterSave_of_unload _ hj hunload hsaving

end Sys2Proof.Machine
end

section
/-! PROOFS. Marks counted and matched (R67, R69, R86, R110, R121, R122, R162): settles O43. -/

namespace Sys2Proof.Machine

/-! ### Counting (R121, R122) -/

section
variable {m : Mc}

/-- The reposition's deceleration is over with the mark that comes. -/
def Mc.runsBack (m : Mc) : Bool := m.state == .repositioning && m.decel == some 0

/-- The travel direction under which the mark that comes is counted. -/
def Mc.travelNext (m : Mc) : Travel :=
  if m.runsBack then (m.pos.map fun p => (passTravel p.pass).turned).getD .stopped else m.travel

theorem runBack_eq (m : Mc) :
    m.runBack =
      { m with
        travel := m.travelNext
        decel := if m.runsBack then none else if m.state = .repositioning then m.decel.map (· - 1) else m.decel } := by
  unfold Mc.runBack Mc.travelNext Mc.runsBack
  split
  · next n hstate hdecel => simp [hstate, hdecel]
  · next hstate hdecel => simp [hstate, hdecel]
  · next hmore hlast =>
    by_cases hstate : m.state = .repositioning
    · cases hdecel : m.decel with
      | none =>
        have hnot : (m.state == .repositioning && (none : Option Nat) == some 0) = false := by simp
        rw [hnot, if_neg Bool.false_ne_true, if_neg Bool.false_ne_true, if_pos hstate, Option.map_none, ← hdecel]
      | some n =>
        cases n with
        | zero => exact absurd hdecel (hlast hstate)
        | succ n => exact absurd hdecel (hmore n hstate)
    · simp [hstate]

theorem countMark_eq (h : m.runIn = false) :
    m.countMark =
      { m with pos := m.pos.map fun p =>
          { p with mark := match m.travel with
                           | .forward => min 60000 (p.mark + 1)
                           | .reverse => p.mark - 1
                           | .stopped => p.mark } } := by
  have hcount : (m.pos.map fun p => match m.travel with
        | .forward => { p with mark := min Config.lastMark (p.mark + 1) }
        | .reverse => { p with mark := p.mark - 1 }
        | .stopped => p)
      = m.pos.map fun p => { p with mark := match m.travel with
                                            | .forward => min 60000 (p.mark + 1)
                                            | .reverse => p.mark - 1
                                            | .stopped => p.mark } := by
    cases m.travel <;> rfl
  unfold Mc.countMark
  rw [if_neg (by rw [h]; exact Bool.false_ne_true)]
  exact congrArg (fun p => { m with pos := p }) hcount

/-- What timing a mark leaves: where the tape is and how it moves. -/
theorem time_keeps (m : Mc) (now : Nat) (changing : Bool) :
    (m.time now changing).state = m.state ∧ (m.time now changing).decel = m.decel ∧ (m.time now changing).pos = m.pos
      ∧ (m.time now changing).travel = m.travel ∧ (m.time now changing).runIn = m.runIn := by
  have hjudge (n : Mc) (ok : Bool) : (n.judge ok).state = n.state ∧ (n.judge ok).decel = n.decel ∧ (n.judge ok).pos = n.pos
      ∧ (n.judge ok).travel = n.travel ∧ (n.judge ok).runIn = n.runIn := by
    unfold Mc.judge
    split <;> exact ⟨rfl, rfl, rfl, rfl, rfl⟩
  unfold Mc.time
  split
  · exact ⟨rfl, rfl, rfl, rfl, rfl⟩
  · dsimp only
    split
    · split
      · exact hjudge _ _
      · exact ⟨rfl, rfl, rfl, rfl, rfl⟩
    · exact ⟨rfl, rfl, rfl, rfl, rfl⟩

/-- A mark captured away from a run-in is timed, ends or runs down a deceleration, and is counted. -/
theorem markTimed_eq (now : Nat) (changing : Bool) (h : m.runIn = false) :
    (m.time now changing).runBack.countMark =
      { m.time now changing with
        travel := m.travelNext
        decel := if m.runsBack then none else if m.state = .repositioning then m.decel.map (· - 1) else m.decel
        pos := m.pos.map fun p =>
          { p with mark := match m.travelNext with
                           | .forward => min 60000 (p.mark + 1)
                           | .reverse => p.mark - 1
                           | .stopped => p.mark } } := by
  obtain ⟨hstate, hdecel, hpos, htravel, hrunIn⟩ := time_keeps m now changing
  generalize m.time now changing = n at hstate hdecel hpos htravel hrunIn ⊢
  have hback : n.runsBack = m.runsBack := by unfold Mc.runsBack; rw [hstate, hdecel]
  have hnext : n.travelNext = m.travelNext := by unfold Mc.travelNext; rw [hback, hpos, htravel]
  rw [runBack_eq, ← hnext, ← hback, ← hstate, ← hdecel, ← hpos]
  exact countMark_eq (hrunIn.trans h)

end

theorem running_iff (g : MotionState) : g.running = true ↔ g ≠ .empty ∧ g ≠ .present ∧ g ≠ .threading ∧ g ≠ .ready := by
  cases g <;> decide

/-! ### Run-ons (R69, R72, R110) -/

section
variable {s u : State}

theorem endRunOn_eq (hu : s.deadline = u) (hmc : u.mc = s.mc) :
    s.endRunOn =
      let t : Tte := { u.tte with runOn := none, underrun := false }
      if s.mc.state ≠ .streaming then { u with tte := t }
      else if s.tte.underrun = true ∧ u.arming = true ∧ u.rg.flushed = false then
        { u with free := u.free + 1, tte := t, rg := { u.rg with stopKind := .underrun }
                 mc := u.mc.reposition (Config.stopMarks u.free) }
      else { u with tte := t, mc := { u.mc with slowing := true, atSpeed := false, runIn := false, decel := none } } := by
  unfold State.endRunOn
  rw [hu]
  dsimp only
  rw [show (u.onTte fun t => { t with runOn := none, underrun := false }).mc = s.mc from hmc]
  by_cases hm : s.mc.state = .streaming
  · rw [if_pos hm, if_neg (not_not_intro hm)]
    show (if (s.tte.underrun && u.arming && !u.rg.flushed) = true then _ else _) = _
    simp only [Bool.and_eq_true, Bool.not_eq_true', and_assoc]
    rfl
  · rw [if_neg hm, if_pos hm]
    rfl

end

/-! ### Matches (R121) -/

section
variable {s : State}

theorem matches_eq (s : State) :
    s.matches_ =
      let s1 := if s.mc.matched .startMark then s.atStartMark else s
      let s2 := if s.mc.matched .passEnd then s1.atPassEnd (s.mc.pos.getD { pass := 0, mark := 0 }) else s1
      if s.mc.matched .locateStop then s2.onMc Mc.decelerate else s2 := rfl

/-- The start mark alone matches. -/
theorem matches_start (hstart : s.mc.matched .startMark = true) (hend : s.mc.matched .passEnd = false)
    (hstop : s.mc.matched .locateStop = false) : s.matches_ = s.atStartMark := by
  rw [matches_eq, hstart, hend, hstop]
  rfl

/-- The pass end alone matches. -/
theorem matches_end {q : TapePos} (hq : s.mc.pos = some q) (hend : s.mc.matched .passEnd = true)
    (hstart : s.mc.matched .startMark = false) (hstop : s.mc.matched .locateStop = false) : s.matches_ = s.atPassEnd q := by
  rw [matches_eq, hstart, hend, hstop, hq]
  rfl

/-- The locate stop alone matches. -/
theorem matches_stop (hstop : s.mc.matched .locateStop = true) (hstart : s.mc.matched .startMark = false)
    (hend : s.mc.matched .passEnd = false) : s.matches_ = s.onMc Mc.decelerate := by
  rw [matches_eq, hstart, hend, hstop]
  rfl

/-- Nothing matches while the tape decelerates. -/
theorem matched_of_slowing (hslow : s.mc.slowing = true) (p : Purpose) : s.mc.matched p = false := by
  unfold Mc.matched
  rw [hslow]
  split
  · simp
  · rfl

theorem matches_of_slowing (hslow : s.mc.slowing = true) : s.matches_ = s := by
  rw [matches_eq, matched_of_slowing hslow, matched_of_slowing hslow, matched_of_slowing hslow]
  rfl

/-! ### The start mark (R67, R86, R90, R112) -/

theorem atStartMark_writing (hm : s.mc.state = .streaming) (hread : s.tte.read = none) :
    s.atStartMark = (s.onMc fun m => m.dropTarget .startMark).startWriting := by
  unfold State.atStartMark
  dsimp only
  rw [if_pos hm, hread]
  rfl

theorem atStartMark_reading {r : ReadState} (hm : s.mc.state = .streaming) (hread : s.tte.read = some r) :
    s.atStartMark = (s.onMc fun m => m.dropTarget .startMark).startReading := by
  unfold State.atStartMark
  dsimp only
  rw [if_pos hm, hread]
  rfl

theorem takeSpeed_writing (hread : s.tte.read = none) :
    s.takeSpeed = { s with mc := { s.mc with speed := Config.levelSpeed (s.rg.held.getD s.rg.level), atSpeed := true }
                           rg := { s.rg with held := none } } := by
  unfold State.takeSpeed State.readSpeed
  rw [hread]
  rfl

theorem takeSpeed_reading {r : ReadState} (hread : s.tte.read = some r) :
    s.takeSpeed =
      { s with
        mc := { s.mc with
          speed := Config.levelSpeed (if r.inRetry then 0 else s.rg.held.getD s.rg.level), atSpeed := true }
        rg := { s.rg with held := none } } := by
  unfold State.takeSpeed
  rw [readSpeed_of_some hread]
  rfl

/-- The armed stripe's transfer begins at the speed of its level (R67). -/
theorem startWriting_transfers {f : InFlight} {p : TapePos} (hread : s.tte.read = none) (hf : s.tte.inFlight = some f)
    (harmed : f.transfer = false) (hp : s.tte.writePoint = some p) :
    s.startWriting =
      { s with
        tte := { s.tte with inFlight := some { f with transfer := true }, writePoint := some p.nextPosition }
        mc := { s.mc.loadStart p.nextPosition with
          speed := Config.levelSpeed (s.rg.held.getD s.rg.level), atSpeed := true }
        rg := { s.rg with held := none } } := by
  have hstarted : s.startTransfer f =
      { s with tte := { s.tte with inFlight := some { f with transfer := true }, writePoint := some p.nextPosition }
               mc := s.mc.loadStart p.nextPosition } := by
    unfold State.startTransfer
    dsimp only [State.onTte]
    rw [hp]
    rfl
  unfold State.startWriting
  rw [hf]
  dsimp only
  rw [if_neg (by rw [harmed]; exact Bool.false_ne_true), hstarted]
  exact takeSpeed_writing
    (s := { s with tte := { s.tte with inFlight := some { f with transfer := true }, writePoint := some p.nextPosition }
                   mc := s.mc.loadStart p.nextPosition }) hread

/-- A reception that has not started leaves no report due. -/
theorem ruleMissing_of_waiting {r : ReadState} {x : Reception} (hr : s.tte.read = some r) (hx : r.reception = some x)
    (hwaits : x.started = false) : s.ruleMissing = s := by
  unfold State.ruleMissing
  rw [hr]
  dsimp only
  rw [hx]
  exact if_neg (by rw [hwaits]; exact Bool.false_ne_true)

/-- The reception whose slot is READING begins at the speed of its level (R86). -/
theorem startReading_receives {r : ReadState} {x : Reception} (hr : s.tte.read = some r) (hx : r.reception = some x)
    (hwaits : x.started = false) :
    s.startReading =
      { s with
        tte := { s.tte with
          read := some { r with reception := some { x with started := true }, point := some x.pos.nextPosition } }
        mc := { s.mc.loadStart x.pos.nextPosition with
          speed := Config.levelSpeed (if r.inRetry then 0 else s.rg.held.getD s.rg.level), atSpeed := true }
        rg := { s.rg with held := none } } := by
  unfold State.startReading
  rw [ruleMissing_of_waiting hr hx hwaits]
  dsimp only
  rw [hr]
  dsimp only
  rw [hx]
  unfold State.startReception
  dsimp only
  rw [onRead_of_some _ hr]
  exact takeSpeed_reading (r := { r with reception := some { x with started := true }, point := some x.pos.nextPosition })
    (s := { s with
      tte := { s.tte with
        read := some { r with reception := some { x with started := true }, point := some x.pos.nextPosition } }
      mc := s.mc.loadStart x.pos.nextPosition }) rfl

/-- A reading tape with no reception repositions. -/
theorem readReposition_threshold {r : ReadState} (kind : StopKind) (hr : s.tte.read = some r) (hx : r.reception = none) :
    s.readReposition kind .threshold =
      { s with
        free := s.free + 1, tte := { s.tte with read := some { r with asked := false } }
        mc := s.mc.reposition (Config.stopMarks s.free)
        rg := { s.rg with stopKind := kind, readStart := .threshold, held := none } } := by
  unfold State.readReposition
  rw [abandonReception_of_none hr hx, ← await_threshold]
  rfl

/-- A start mark that finds no FREE slot: backpressure, a retry's wait, or a retry. -/
theorem blocked_eq {r q : ReadState} {p : TapePos} (hq : s.tte.read = some q) (hx : q.reception = none) (hp : r.point = some p)
    (hdue : q.retryDue = false) :
    s.blocked r =
      let back (kind : StopKind) (due : Bool) : State :=
        { s with
          free := s.free + 1, tte := { s.tte with read := some { q with asked := false, retryDue := due } }
          mc := s.mc.reposition (Config.stopMarks s.free)
          rg := { s.rg with stopKind := kind, readStart := .threshold, held := none } }
      match r.window with
      | none => back .backpressure false
      | some w => back .none (!(r.inRetry && p == (w.origin.before 12).position)) := by
  have hsame : ({ q with asked := false } : ReadState) = { q with asked := false, retryDue := false } := by rw [← hdue]
  unfold State.blocked
  cases r.window with
  | none =>
    dsimp only
    rw [readReposition_threshold _ hq hx, hsame]
  | some w =>
    dsimp only
    rw [readReposition_threshold _ hq hx, hp, Option.some_beq_some]
    cases hcond : (r.inRetry && p == retryPoint w.origin) with
    | true =>
      rw [if_pos rfl, hsame, show (r.inRetry && p == (w.origin.before 12).position) = true from hcond]
      rfl
    | false =>
      rw [if_neg Bool.false_ne_true, show (r.inRetry && p == (w.origin.before 12).position) = false from hcond]
      rfl

/-- A reading tape that goes on with no reception asks for a slot, but for a LOOPBACK's. -/
theorem startReading_asks {r : ReadState} {p : TapePos} (hr : s.tte.read = some r) (hx : r.reception = none)
    (hp : r.point = some p) (hgoing : r.going = true) :
    s.startReading =
      if s.tte.loopback.isSome then s.blocked r
      else match (s.askSlot p).tte.read.bind (·.reception) with
        | some x => (s.askSlot p).startReception x
        | none => (s.askSlot p).blocked r := by
  unfold ReadState.going at hgoing
  simp only [Bool.and_eq_true, Bool.not_eq_true', Option.isNone_iff_eq_none] at hgoing
  obtain ⟨⟨heod, hdue⟩, hmarker⟩ := hgoing
  unfold State.startReading
  rw [ruleMissing_of_none hr hx]
  dsimp only
  rw [hr]
  dsimp only
  rw [hx]
  dsimp only
  rw [hp]
  dsimp only
  rw [if_neg (by rw [hdue, hmarker]; exact Bool.false_ne_true), if_neg (by rw [heod]; exact Bool.false_ne_true)] <;>
    rfl

/-- A reading tape that goes on finds no FREE slot at its start mark. -/
theorem startReading_blocked {r : ReadState} {p : TapePos} (hr : s.tte.read = some r) (hx : r.reception = none)
    (hp : r.point = some p) (hgoing : r.going = true) (hnone : s.lowestFree = none ∨ s.tte.loopback ≠ none) :
    s.startReading =
      let back (kind : StopKind) (due : Bool) : State :=
        { s with
          free := s.free + 1, tte := { s.tte with read := some { r with asked := false, retryDue := due } }
          mc := s.mc.reposition (Config.stopMarks s.free)
          rg := { s.rg with stopKind := kind, readStart := .threshold, held := none } }
      match r.window with
      | none => back .backpressure false
      | some w => back .none (!(r.inRetry && p == (w.origin.before 12).position)) := by
  have hdue : r.retryDue = false := by
    unfold ReadState.going at hgoing
    simp only [Bool.and_eq_true, Bool.not_eq_true'] at hgoing
    exact hgoing.1.2
  refine (startReading_asks hr hx hp hgoing).trans ?_
  cases hloop : s.tte.loopback with
  | some l => exact blocked_eq hr hx hp hdue
  | none =>
    have hfree : s.freeFor .reading = none :=
      freeFor_reading_eq_none_iff.2 (Or.inr (Or.inr (hnone.resolve_right (not_not_intro hloop))))
    have hasked : (s.askSlot p).tte.read.bind (·.reception) = none := by
      rw [askSlot_of_none hr hfree]
      exact hx
    dsimp only
    rw [if_neg (by simp), hasked, askSlot_of_none hr hfree]
    exact blocked_eq (s := { s with tte := { s.tte with read := some { r with asked := true } } })
      (q := { r with asked := true }) rfl hx hp hdue

/-! ### The pass end (R66, R69, R86, R121) -/

theorem atPassEnd_writing (q : TapePos) (hm : s.mc.state = .streaming) (hread : s.tte.read = none) :
    s.atPassEnd q = (s.onMc fun m => m.dropTarget .passEnd).endWritingPass q := by
  unfold State.atPassEnd
  dsimp only
  rw [hm, hread]
  rfl

theorem atPassEnd_reading {r : ReadState} (q : TapePos) (hm : s.mc.state = .streaming) (hread : s.tte.read = some r) :
    s.atPassEnd q =
      if r.going then (s.onMc fun m => m.dropTarget .passEnd).readTurn q else s.onMc fun m => m.dropTarget .passEnd := by
  unfold State.atPassEnd
  dsimp only
  rw [hm, hread]
  dsimp only
  rw [if_pos (Option.isSome_some)]
  unfold State.endReadingPass
  rw [show (s.onMc fun m => m.dropTarget .passEnd).tte.read = some r from hread]

theorem atPassEnd_searching {j : Job} {x : Search} (q : TapePos) (hm : s.mc.state = .moving) (hj : s.mc.job = some j)
    (hstage : j.stage = .searching) (hx : j.search = some x) :
    s.atPassEnd q =
      if q.pass < 63 then { s with mc := s.mc.turn }
      else State.searchAtMediaEnd { s with mc := s.mc.dropTarget .passEnd } j x := by
  unfold State.atPassEnd
  dsimp only
  rw [hm, hj]
  dsimp only
  refine (if_pos (congrArg some hstage)).trans ?_
  unfold State.endSearchPass
  rw [show (s.onMc fun m => m.dropTarget .passEnd).mc.job = some j from hj]
  dsimp only
  rw [hx]
  rfl

theorem endWritingPass_runOn {n : Nat} (q : TapePos) (hrun : s.tte.runOn = some n) : s.endWritingPass q = s :=
  if_pos (by rw [hrun]; rfl)

/-- The end of a pass with nothing in flight: the tape turns, or on the last pass the run-on is over the rest of the tape. -/
theorem endWritingPass_idle (q : TapePos) (hrun : s.tte.runOn = none) (hflight : s.tte.inFlight = none) :
    s.endWritingPass q =
      if q.pass < 63 then (if s.arming then s.writeTurn q else s.turnWriting) else s.runOver 0 := by
  unfold State.endWritingPass
  rw [if_neg (by rw [hrun]; exact Bool.false_ne_true), channelEnd_of_none hflight]
  rfl

/-- A tape that turns while writing gives a stripe awaiting verify its run-on. -/
theorem turnWriting_eq (s : State) :
    s.turnWriting =
      { s with
        mc := s.mc.turn
        tte := match s.tte.verify with
          | none => s.tte
          | some v => { s.tte with runOn := some 0, underrun := false, verify := some { v with runOn := true } } } := by
  unfold State.turnWriting
  dsimp only
  rw [show (s.onMc Mc.turn).tte = s.tte from rfl]
  cases hv : s.tte.verify with
  | none => rfl
  | some v =>
    have hmap : s.tte.verify.map (fun v => { v with runOn := true }) = some { v with runOn := true } := by rw [hv]; rfl
    exact congrArg
      (fun w => { s with mc := s.mc.turn, tte := { s.tte with runOn := some 0, underrun := false, verify := w } }) hmap

end

/-- Settles O43: the count of a mark, what a run-on's end makes, and each match alone. -/
theorem marksAreCounted : Obligations.MarksAreCounted := by
  unfold Obligations.MarksAreCounted
  refine ⟨?counted, running_iff, ?wear, ?runOn, ?judged, ?start, ?passEnd, ?search, fun s h => matches_of_slowing h,
    fun s hstop hstart hend => matches_stop hstop hstart hend⟩
  case counted =>
    intro s wait hrunning htravel hrunIn e back travel
    have hpass : s.mc.marksPass = true := by
      unfold Mc.marksPass
      rw [hrunning, Bool.true_and, Bool.or_eq_true, bne_iff_ne, beq_iff_eq]
      exact htravel
    have hmc : (e.mc.time e.now e.changing).runBack.countMark = _ := markTimed_eq e.now e.changing hrunIn
    refine (if_pos hpass).trans (next_congr (congrArg State.finish ?_))
    show State.matches_ (((e.onMc fun m => (m.time e.now e.changing).runBack.countMark).markWear).onTte Tte.runMark) = _
    rw [show (e.onMc fun m => (m.time e.now e.changing).runBack.countMark)
      = { e with mc := (e.mc.time e.now e.changing).runBack.countMark } from rfl, hmc]
    rfl
  case wear =>
    intro s n hn
    show execWearStep s = _
    unfold execWearStep
    rw [hn] <;> rfl
  case runOn =>
    intro s hrun hverify t
    refine (if_pos hrun).trans (next_congr (congrArg State.finish ?_))
    exact endRunOn_eq (deadline_of_none hverify) rfl
  case judged =>
    intro s v hrun hverify u t
    have hmc : u.mc = s.mc := State.mc_of_running (s.judgeFailed_running v.slot none)
    refine (if_pos hrun).trans (next_congr (congrArg State.finish ?_))
    exact endRunOn_eq (deadline_of_some hverify) hmc
  case start =>
    intro s hm hstart hend hstop waits level
    refine ⟨fun f p hread hf harmed hp => ?_, fun r x hr hx hwaits => ?_, fun r p hr hx hp hgoing hnone => ?_⟩
    · rw [matches_start hstart hend hstop, atStartMark_writing hm hread]
      exact startWriting_transfers (s := s.onMc fun m => m.dropTarget .startMark) hread hf harmed hp
    · rw [matches_start hstart hend hstop, atStartMark_reading hm hr]
      exact startReading_receives (s := s.onMc fun m => m.dropTarget .startMark) hr hx hwaits
    · intro back
      rw [matches_start hstart hend hstop, atStartMark_reading hm hr]
      exact startReading_blocked (s := s.onMc fun m => m.dropTarget .startMark) hr hx hp hgoing hnone
  case passEnd =>
    intro s q hm hq hend hstart hstop passes
    have hmatch : s.matches_ = s.atPassEnd q := matches_end hq hend hstart hstop
    refine ⟨fun n hread hrun => ?_, fun hread hrun hflight hpass => ?_, fun hread hrun hflight hpass => ?_,
      fun r hread hgoing hpass => ?_, fun r hread hgoing => ?_⟩
    · rw [hmatch, atPassEnd_writing q hm hread]
      exact endWritingPass_runOn (s := s.onMc fun m => m.dropTarget .passEnd) q hrun
    · intro p
      rw [hmatch, atPassEnd_writing q hm hread,
        endWritingPass_idle (s := s.onMc fun m => m.dropTarget .passEnd) q hrun hflight, if_pos hpass]
      show (if s.arming then _ else _) = _
      cases harm : s.arming with
      | true =>
        rw [show p = some q.nextPass from if_pos harm]
        exact turnWriting_eq (s := { s with mc := passes, tte := { s.tte with writePoint := some q.nextPass } })
      | false =>
        rw [show p = s.tte.writePoint from if_neg (by rw [harm]; exact Bool.false_ne_true)]
        exact turnWriting_eq (s := { s with mc := passes })
    · rw [hmatch, atPassEnd_writing q hm hread,
        endWritingPass_idle (s := s.onMc fun m => m.dropTarget .passEnd) q hrun hflight, if_neg (by omega)]
      rfl
    · rw [hmatch, atPassEnd_reading q hm hread, if_pos hgoing]
      exact readTurn_goes_on (s := s.onMc fun m => m.dropTarget .passEnd) hread hpass
    · rw [hmatch, atPassEnd_reading q hm hread, if_neg (by rw [hgoing]; exact Bool.false_ne_true)]
      rfl
  case search =>
    intro s q j x hm hq hend hstart hstop hj hstage hx
    rw [matches_end hq hend hstart hstop, atPassEnd_searching q hm hj hstage hx]
    exact ⟨fun hpass => if_pos hpass, fun hpass => if_neg (by omega)⟩

end Sys2Proof.Machine
end

section
/-! PROOFS. The ring transfers at place 6 of the arbiter (R158, R179 to R183, R187 to R190): settles O33. -/

namespace Sys2Proof.Machine

/-! ### Memory -/

/-- A byte elsewhere reads as before a write, whatever the form of the memory. -/
theorem Memory.read_write_of_ne {a x : Nat} (b : Byte) (h : x ≠ a) :
    ∀ m : List Host.Cell, Memory.read (Memory.write m a b) x = Memory.read m x
  | [] => by
    unfold Memory.write
    split
    · rfl
    · exact if_neg (Ne.symm h)
  | (k, v) :: rest => by
    have hread : Memory.read ((a, b) :: (k, v) :: rest) x = Memory.read ((k, v) :: rest) x := if_neg (Ne.symm h)
    unfold Memory.write
    split
    · split
      · rfl
      · exact hread
    · split
      · next hk =>
        have hskip : Memory.read ((k, v) :: rest) x = Memory.read rest x := if_neg (by omega)
        split
        · exact hskip.symm
        · exact (if_neg (Ne.symm h)).trans hskip.symm
      · exact congrArg (ite (k = x) v) (Memory.read_write_of_ne b h rest)

/-- A byte outside the bytes written reads as before, whatever the form of the memory. -/
theorem Memory.read_writeBytes_frame : ∀ (bs : List Byte) (m : List Host.Cell) (a x : Nat), x < a ∨ a + bs.length ≤ x →
    Memory.read (Memory.writeBytes m a bs) x = Memory.read m x
  | [], _, _, _, _ => rfl
  | b :: bs, m, a, x, hx => by
    rw [List.length_cons] at hx
    rw [Memory.writeBytes, Memory.read_writeBytes_frame bs _ (a + 1) x (by omega), Memory.read_write_of_ne b (by omega)]

section
variable {s : State}

/-! ### Records and the part status block (R183, R187, R189) -/

theorem askStatus_keeps (s : State) :
    s.askStatus.dram = s.dram ∧ s.askStatus.ci = s.ci ∧ s.askStatus.cw = { s.cw with statusAsked := true } := by
  unfold State.askStatus
  split
  · next hasked => exact ⟨rfl, rfl, by rw [← hasked]⟩
  · exact ⟨rfl, rfl, rfl⟩

/-- A record is written at the tail's slot, and its status write is asked. -/
theorem writeRecord_some {i : Item} {rest : List Item} (hpending : s.cw.pending = i :: rest)
    (hring : s.ringSlots .completion 32 ≠ 0) :
    let t := s.writeRecord
    t.dram = Memory.writeBytes s.dram (s.ringAddr .completion 32 s.cw.tail) (i.bytes s.free)
      ∧ t.cw.pending = rest ∧ t.cw.tail = s.cw.tail ∧ t.cw.tailDue = some i ∧ t.cw.statusAsked = true
      ∧ t.cw.recordAsked = false ∧ t.ci = s.ci := by
  unfold State.writeRecord
  dsimp only
  rw [hpending]
  dsimp only
  rw [if_neg hring]
  obtain ⟨hdram, hci, hcw⟩ := askStatus_keeps
    (({ (s.onCw fun c => { c with recordAsked := false }).onDram fun m =>
          Memory.writeBytes m (s.ringAddr .completion 32 s.cw.tail) (i.bytes s.free) with free := s.free + 16 } : State).onCw
      fun c => { c with pending := rest, tailDue := some i
                        slotKinds := (c.slotKinds.filter fun e => e.1 != c.tail) ++ [(c.tail, i.cmd.isNone)] })
  exact ⟨hdram, (congrArg Cw.pending hcw :), (congrArg Cw.tail hcw :), (congrArg Cw.tailDue hcw :),
    (congrArg Cw.statusAsked hcw :), (congrArg Cw.recordAsked hcw :), hci⟩

theorem statusBytes_length (s : State) : s.statusBytes.length = 24 := rfl

/-- The interrupt judged anew and the full test leave memory, the commands and the tail. -/
theorem judged_keeps (s : State) :
    s.judgeAttn.tryRecord.dram = s.dram ∧ s.judgeAttn.tryRecord.cw.tail = s.cw.tail
      ∧ s.judgeAttn.tryRecord.cw.tailDue = s.cw.tailDue ∧ s.judgeAttn.tryRecord.ci = s.ci := by
  unfold State.tryRecord
  split <;> exact ⟨rfl, rfl, rfl, rfl⟩

/-- The status write changes the 24 bytes of the block; the tail, the commands and the rest are as the raise leaves them. -/
theorem writeStatus_keeps (s : State) :
    s.writeStatus.dram = Memory.writeBytes s.raiseTail.dram (Config.mapPage + 384) s.raiseTail.statusBytes
      ∧ s.writeStatus.cw.tail = s.raiseTail.cw.tail ∧ s.writeStatus.cw.tailDue = s.raiseTail.cw.tailDue
      ∧ s.writeStatus.ci = s.raiseTail.ci := by
  unfold State.writeStatus
  dsimp only
  generalize s.raiseTail = u
  generalize u.statusBytes = block
  exact judged_keeps ((u.onDram fun m => Memory.writeBytes m (Config.mapPage + 384) block).onCw fun c =>
    { c with shown := block, statusAsked := false })

theorem askPost_keeps (s : State) : s.askPost.ci = s.ci ∧ s.askPost.cw = s.cw ∧ s.askPost.dram = s.dram := by
  unfold State.askPost
  split <;> exact ⟨rfl, rfl, rfl⟩

/-- The raise moves the tail, and a command that it completes leaves the outstanding list. -/
theorem raiseTail_some {i : Item} (hdue : s.cw.tailDue = some i) (hring : s.ringSlots .completion 32 ≠ 0) :
    s.raiseTail.dram = s.dram ∧ s.raiseTail.cw.tail = (s.cw.tail + 1) % s.ringSlots .completion 32
      ∧ s.raiseTail.cw.tailDue = none
      ∧ (∀ id, i.cmd = some id → s.raiseTail.ci.outstanding = s.ci.outstanding.filter fun u => u.id != id)
      ∧ (i.cmd = none → s.raiseTail.ci = s.ci) := by
  unfold State.raiseTail
  rw [hdue]
  dsimp only
  cases hcmd : i.cmd with
  | none => exact ⟨rfl, if_neg hring, rfl, nofun, fun _ => rfl⟩
  | some id =>
    obtain ⟨hci, hcw, hdram⟩ := askPost_keeps
      ((s.onCw fun c =>
        { c with tail := if s.ringSlots .completion 32 = 0 then c.tail else (c.tail + 1) % s.ringSlots .completion 32
                 tailDue := none }).onCi fun c => { c with outstanding := c.outstanding.filter (·.id != id) })
    refine ⟨hdram, (congrArg Cw.tail hcw :).trans (if_neg hring), (congrArg Cw.tailDue hcw :), fun k hk => ?_, nofun⟩
    obtain rfl := Option.some.inj hk
    exact (congrArg Ci.outstanding hci :)

/-! ### Command slots (R182, R183) -/

/-- The CI-unit's read of a slot, with the fields of its post word at their places in the slot. -/
theorem takeSlot_eq (hfew : s.ci.outstanding.length < 16) (hring : s.ringSlots .command 64 ≠ 0) :
    let a := s.ringAddr .command 64 s.ci.intake
    let slot := s.seenBytes a 64
    let post := slot.drop 56
    s.takeSlot = State.takeCmd
      (State.askPost { s with
        bpu := { s.bpu with ring := s.bpu.ring ++ [.clearPost (a + 56) (post.take 7 ++ [post.getD 7 0 &&& 254#8])] }
        ci := { s.ci with intake := (s.ci.intake + 1) % s.ringSlots .command 64 } })
      (BitVec.ofNat 16 (fieldAt slot 58 2)) (slot.getD 57 0) (postMalformed post)
      (decodeCmd (fieldAt slot 56 1) (slot.take 56)) := by
  intro a slot post
  have htag : fieldAt post 2 2 = fieldAt slot 58 2 := by unfold fieldAt; rw [List.drop_drop]
  have hcode : fieldAt post 0 1 = fieldAt slot 56 1 := by unfold fieldAt; rw [List.drop_drop]
  have hflags : post.getD 1 0 = slot.getD 57 0 := by
    rw [List.getD_eq_getElem?_getD, List.getElem?_drop, List.getD_eq_getElem?_getD]
  rw [← htag, ← hcode, ← hflags]
  refine if_neg ?_
  rintro (hnone | hmany)
  · exact hring hnone
  · exact absurd hfew (Nat.not_lt.2 hmany)

theorem seenBytes_getD (s : State) : ∀ n a k, k < n → (s.seenBytes a n).getD k 0 = s.seen (a + k)
  | n + 1, a, 0, _ => rfl
  | n + 1, a, k + 1, h => by
    rw [Nat.add_comm k 1, ← Nat.add_assoc, ← seenBytes_getD s n (a + 1) k (by omega), Nat.add_comm 1 k]
    rfl

/-- The read of the post word asks for the slot of a valid one where there is room. -/
theorem readPostWord_eq (s : State) :
    s.readPostWord =
      if s.ringSlots .command 64 ≠ 0 ∧ bitOf (s.seen (s.ringAddr .command 64 s.ci.intake + 63)) 0 = true
          ∧ s.ci.outstanding.length < 16 ∧ RingReq.readSlot ∉ s.bpu.ring then
        { s with bpu := { s.bpu with ring := s.bpu.ring ++ [.readSlot] } }
      else s := by
  have hword : (s.seenBytes (s.ringAddr .command 64 s.ci.intake + 56) 8).getD 7 0
      = s.seen (s.ringAddr .command 64 s.ci.intake + 63) := seenBytes_getD s 8 _ 7 (by decide)
  unfold State.readPostWord
  dsimp only
  rw [hword]
  by_cases hring : s.ringSlots .command 64 = 0
  · rw [if_pos hring, if_neg fun h => h.1 hring]
  · rw [if_neg hring]
    simp only [Bool.and_eq_true, decide_eq_true_eq, Bool.not_eq_true', List.contains_eq_mem, decide_eq_false_iff_not, and_assoc,
      ne_eq, hring, not_false_eq_true, true_and]
    rfl

/-! ### Grants (R179) -/

/-- A grant within DRAM makes the transfer of the requester chosen. -/
theorem exec_grant {r : Requester} (hchoice : s.choice = some r) (hreach : s.reach r ≤ Config.dramSize) :
    exec (.dramPortGrant .quiet) s = .next (s.grant r).finish := by
  refine (execDramPortGrant_eq s .quiet).trans ?_
  rw [show s.channelFlow .quiet = s from rfl, hchoice]
  exact if_neg (Nat.not_lt.2 hreach)

/-- The state in which the oldest request at place 6 is served. -/
def State.ringGranted (s : State) (rest : List RingReq) : State :=
  { s with bpu := { s.bpu with ring := rest, starve := (s.countGrant .ring).bpu.starve } }

theorem grant_ring {r : RingReq} {rest : List RingReq} (hring : s.bpu.ring = r :: rest) :
    s.grant .ring = (s.ringGranted rest).doRing r := by
  show (s.countGrant .ring).doOldestRing = _
  unfold State.doOldestRing
  rw [show (s.countGrant .ring).bpu.ring = r :: rest from hring]
  rfl

/-- One past the last byte that a request at place 6 can touch. -/
theorem reach_ring {r : RingReq} {rest : List RingReq} (hring : s.bpu.ring = r :: rest) :
    s.reach .ring =
      match (generalizing := false) r with
      | .completion => s.ringAddr .completion 32 s.cw.tail + 32
      | .sensor _ _ => s.ringAddr .sensor 32 s.ss.tail + 32
      | .clearPost a _ => a + 8
      | .readPost => s.ringAddr .command 64 s.ci.intake + 64
      | .readSlot => s.ringAddr .command 64 s.ci.intake + 64
      | _ => 0 := by
  unfold State.reach
  rw [hring]
  cases r <;> rfl

/-- A capture of a controller reset's zeros counts one of its writes. -/
theorem captureWrite_rewritten (s : State) (off : Nat) (bs : List Byte) :
    (s.captureWrite off bs).rewritten =
      { s with
        dram := Memory.writeBytes s.dram (Config.mapPage + off) bs
        bpu := { s.bpu with captured := layOver s.bpu.captured off bs, rewrites := s.bpu.rewrites - 1 } } := rfl

/-- The state with a word of the map page zeroed in DRAM. -/
def State.zeroed (s : State) (off : Nat) : State :=
  { s with dram := Memory.writeBytes s.dram (Config.mapPage + off) (zeros 4) }

theorem doRing_zeroWord (s : State) (off : Nat) :
    s.doRing (.zeroWord off) =
      if off = 268 then ((s.zeroed off).captureWord off).rewritten else (s.zeroed off).captureWord off := rfl

/-- A zero written over a word of the map page stands there. -/
theorem mapWord_zeroed (hm : Memory.wf s.dram = true) (off : Nat) : (s.zeroed off).mapWord off = 0 :=
  congrArg ofLe (Memory.readBytes_writeBytes hm (Config.mapPage + off) (zeros 4))

theorem doRing_zeroReset (hm : Memory.wf s.dram = true) : s.doRing (.zeroWord 268) = (s.zeroed 268).rewritten := by
  rw [doRing_zeroWord, if_pos rfl, State.captureWord_reset, mapWord_zeroed hm, if_neg (by decide)]

theorem doRing_zeroCompletion (hm : Memory.wf s.dram = true) :
    s.doRing (.zeroWord 256) = (((s.zeroed 256).onCw fun c => { c with head := 0 }).tryRecord).judgeAttn := by
  rw [doRing_zeroWord, if_neg (by decide), State.captureWord_completion, mapWord_zeroed hm]

theorem doRing_zeroSensor (hm : Memory.wf s.dram = true) :
    s.doRing (.zeroWord 260) = ((s.zeroed 260).onSs fun x => { x with head := 0 }).judgeAttn := by
  rw [doRing_zeroWord, if_neg (by decide), State.captureWord_sensor, mapWord_zeroed hm]

theorem doRing_zeroMask (hm : Memory.wf s.dram = true) :
    s.doRing (.zeroWord 264) = ((s.zeroed 264).onCw fun c => { c with mask := 0 }).judgeAttn := by
  rw [doRing_zeroWord, if_neg (by decide), State.captureWord_mask, mapWord_zeroed hm]

end

/-- Settles O33: the record, the status block and the command slot, and each request as place 6 is granted. -/
theorem ringsAreServed : Obligations.RingsAreServed := by
  unfold Obligations.RingsAreServed
  refine ⟨⟨?record, ?status⟩, ?slot, ?flow, ?granted⟩
  case record =>
    intro s i rest hpending hring
    exact writeRecord_some hpending hring
  case status =>
    intro s i hdue hring t
    obtain ⟨hdram, htail, htailDue, hci⟩ := writeStatus_keeps s
    obtain ⟨hrdram, hrtail, hrdue, hcommand, hnote⟩ := raiseTail_some hdue hring
    refine ⟨htail.trans hrtail, htailDue.trans hrdue, fun id hid => (congrArg Ci.outstanding hci).trans (hcommand id hid),
      fun hnone => hci.trans (hnote hnone), fun a ha => ?_⟩
    rw [show t.dram = _ from hdram, hrdram]
    exact Memory.read_writeBytes_frame _ _ _ a (by rw [statusBytes_length]; omega)
  case slot =>
    intro s hfew hring
    exact takeSlot_eq hfew hring
  case flow =>
    intro s flow
    rfl
  case granted =>
    intro s r rest hchoice hring u granted zeroed post
    have hserved (hreach : s.reach .ring ≤ Config.dramSize) : granted = .next (u.doRing r).finish :=
      (exec_grant hchoice hreach).trans (next_congr (congrArg State.finish (grant_ring hring)))
    have hnone (h : s.reach .ring = 0) : granted = .next (u.doRing r).finish := hserved (h ▸ Nat.zero_le _)
    have hreach := reach_ring hring
    refine ⟨fun i hr => ?descriptor, fun hm => ⟨fun hr => ?reset, fun hr => ?head, fun hr => ?sensorHead, fun hr => ?mask⟩,
      fun a bytes hr hin => ?clear, fun hin => ⟨fun hr => ?post, fun hr => ?read⟩, fun hr hin => ?completion, fun hr => ?block,
      fun i bytes hr hin => ?sensor⟩
    case descriptor =>
      subst hr
      exact (hnone hreach).trans (next_congr (congrArg State.finish (captureWrite_rewritten u (16 * i) (zeros 16))))
    case reset =>
      subst hr
      exact (hnone hreach).trans (next_congr (congrArg State.finish (doRing_zeroReset (s := u) hm.1)))
    case head =>
      subst hr
      exact (hnone hreach).trans (next_congr (congrArg State.finish (doRing_zeroCompletion (s := u) hm.1)))
    case sensorHead =>
      subst hr
      exact (hnone hreach).trans (next_congr (congrArg State.finish (doRing_zeroSensor (s := u) hm.1)))
    case mask =>
      subst hr
      exact (hnone hreach).trans (next_congr (congrArg State.finish (doRing_zeroMask (s := u) hm.1)))
    case clear =>
      subst hr
      exact hserved (hreach ▸ hin)
    case post =>
      subst hr
      exact (hserved (hreach ▸ hin)).trans (next_congr (congrArg State.finish (readPostWord_eq u)))
    case read =>
      subst hr
      exact hserved (hreach ▸ hin)
    case completion =>
      subst hr
      exact hserved (hreach ▸ hin)
    case block =>
      subst hr
      exact hnone hreach
    case sensor =>
      subst hr
      exact hserved (hreach ▸ hin)

end Sys2Proof.Machine
end

section
/-! PROOFS. What a grant of the port makes for each requester but place 6 (R22, R34, R53, R61, R67, R86, R93, R170, R176 to R179):
settles O32. -/

namespace Sys2Proof.Machine

section
variable {s : State}

theorem finish_dram (s : State) : s.finish.dram = s.dram := State.dram_of_rest s.finish_rest

/-! ### The requester's transfer (R179) -/

section
variable (s : State) (r : Requester)

theorem countGrant_dram : (s.countGrant r).dram = s.dram := rfl
theorem countGrant_pe : (s.countGrant r).pe = s.pe := rfl
theorem countGrant_spm : (s.countGrant r).spm = s.spm := rfl
theorem countGrant_tte : (s.countGrant r).tte = s.tte := rfl
theorem countGrant_ue : (s.countGrant r).ue = s.ue := rfl
theorem countGrant_effective : (s.countGrant r).bpu.effective = s.bpu.effective := rfl

theorem countGrant_slotAt (i : Nat) : (s.countGrant r).slotAt i = s.slotAt i := by
  unfold State.slotAt
  rw [countGrant_spm]

theorem countGrant_slotBase (i : Nat) : (s.countGrant r).slotBase i = s.slotBase i := by
  unfold State.slotBase State.region
  rw [countGrant_effective]

theorem countGrant_openEntry (i : Nat) (last : Bool) : (s.countGrant r).openEntry i last = s.openEntry i last := by
  unfold State.openEntry
  rw [countGrant_slotAt, countGrant_pe]

end

theorem grant_tte {w : TteWork} (hw : s.tteWork = some w) : s.grant .tte = (s.countGrant .tte).doTteWork w := by
  show ((s.countGrant .tte).tteWork.map (s.countGrant .tte).doTteWork).getD (s.countGrant .tte) = _
  rw [show (s.countGrant .tte).tteWork = some w from hw]
  rfl

theorem grant_pack {w : PackWork} (hw : s.packWork = some w) : s.grant .pack = (s.countGrant .pack).doPackWork w := by
  show ((s.countGrant .pack).packWork.map (s.countGrant .pack).doPackWork).getD (s.countGrant .pack) = _
  rw [show (s.countGrant .pack).packWork = some w from hw]
  rfl

theorem grant_unpack {d : Delivery} (hw : s.unpackWork = some d) : s.grant .unpack = (s.countGrant .unpack).fetchCoded d := by
  show ((s.countGrant .unpack).unpackWork.map (s.countGrant .unpack).fetchCoded).getD (s.countGrant .unpack) = _
  rw [show (s.countGrant .unpack).unpackWork = some d from hw]
  rfl

theorem doTteWork_fetch {i n k : Nat} (hk : min (64 - (s.slotBase i + n) % 64) (Config.stripeSize - n) = k) :
    s.doTteWork (.fetch i n) =
      { s with tte := Tte.fetchedMore { s.tte with fifo := s.tte.fifo ++ Memory.readBytes s.dram (s.slotBase i + n) k } k } := by
  unfold State.doTteWork
  dsimp only
  rw [hk]
  rfl

theorem doTteWork_store {i n m : Nat}
    (hm : min (min (64 - (s.slotBase i + n) % 64) (Config.stripeSize - n)) s.tte.fifo.length = m) :
    s.doTteWork (.store i n) =
      { s with
        dram := Memory.writeBytes s.dram (s.slotBase i + n) (s.tte.fifo.take m)
        tte := { s.tte with
          fifo := s.tte.fifo.drop m
          read := s.tte.read.map fun r =>
            { r with reception := r.reception.map fun x => { x with stored := x.stored + m } } } } := by
  unfold State.doTteWork
  dsimp only
  rw [hm]
  rfl

/-- Granted a fetch, the Tape Transfer Engine moves bytes of the slot into its FIFO. -/
theorem grant_fetch {i n k : Nat} (hw : s.tteWork = some (.fetch i n))
    (hk : min (64 - (s.slotBase i + n) % 64) (Config.stripeSize - n) = k) :
    s.grant .tte =
      { s.countGrant .tte with
        tte := Tte.fetchedMore { s.tte with fifo := s.tte.fifo ++ Memory.readBytes s.dram (s.slotBase i + n) k } k } := by
  rw [grant_tte hw, doTteWork_fetch (s := s.countGrant .tte) (k := k) (by rw [countGrant_slotBase]; exact hk), countGrant_slotBase,
    countGrant_dram]
  rfl

/-- Granted a store, it moves bytes of its FIFO into the slot. -/
theorem grant_store {i n m : Nat} (hw : s.tteWork = some (.store i n))
    (hm : min (min (64 - (s.slotBase i + n) % 64) (Config.stripeSize - n)) s.tte.fifo.length = m) :
    s.grant .tte =
      { s.countGrant .tte with
        dram := Memory.writeBytes s.dram (s.slotBase i + n) (s.tte.fifo.take m)
        tte := { s.tte with
          fifo := s.tte.fifo.drop m
          read := s.tte.read.map fun r =>
            { r with reception := r.reception.map fun x => { x with stored := x.stored + m } } } } := by
  rw [grant_tte hw, doTteWork_store (s := s.countGrant .tte) (m := m) (by rw [countGrant_slotBase, countGrant_tte]; exact hm),
    countGrant_slotBase, countGrant_dram, countGrant_tte]

/-- Granted to it, the Unpack Engine's transfer gives the decoder coded bytes. -/
theorem grant_fetchCoded {d : Delivery} (hw : s.unpackWork = some d) :
    let a := s.slotBase d.slot + d.pieceAt + d.fetched
    let k := min (64 - a % 64) (d.pieceLength - d.fetched)
    s.grant .unpack =
      { s.countGrant .unpack with ue := { s.ue with
          decoder := { s.ue.decoder with input := s.ue.decoder.input ++ Memory.readBytes s.dram a k }
          record := some { d with fetched := d.fetched + k } } } := by
  rw [grant_unpack hw]
  unfold State.fetchCoded State.onUe
  dsimp only
  rw [countGrant_slotBase, countGrant_dram, countGrant_ue]

/-- The state in which the oldest upstream request is served. -/
def State.upstreamGranted (s : State) (rest : List UpReq) : State :=
  { s with bpu := { s.bpu with upstream := rest, starve := (s.countGrant .upstream).bpu.starve } }

theorem grant_line {block : Nat} {bytes : List (Option Byte)} {rest : List UpReq} (h : s.bpu.upstream = .line block bytes :: rest) :
    s.grant .upstream = { s.upstreamGranted rest with dram := Memory.writeMarked s.dram block bytes } := by
  show (s.countGrant .upstream).doUpstream = _
  unfold State.doUpstream
  rw [show (s.countGrant .upstream).bpu.upstream = .line block bytes :: rest from h]
  rfl

theorem grant_access {a : Access} {rest : List UpReq} (h : s.bpu.upstream = .access a :: rest) :
    s.grant .upstream = (s.upstreamGranted rest).performAccess a := by
  show (s.countGrant .upstream).doUpstream = _
  unfold State.doUpstream
  rw [show (s.countGrant .upstream).bpu.upstream = .access a :: rest from h]
  rfl

/-! ### Upstream writes (R34, R176) -/

theorem onDram_answer (f : List Host.Cell → List Host.Cell) (who : Initiator) (okay : Bool) (bytes : List Byte) :
    (s.onDram f).answer who okay bytes = { s.answer who okay bytes with dram := f s.dram } := by
  cases who <;> rfl

/-- An unposted write outside the map page is performed, but for a POOL write to a slot that is not FREE. -/
theorem performAccess_below_map {a : Access} (hw : a.write = true) (hmap : a.addr < Config.mapPage) :
    s.performAccess a =
      if a.pool = false ∨ s.inFreeSlot a.addr = true then
        { s.answer a.who true [] with dram := storeAt s.dram a.addr a.width a.value }
      else s.answer a.who false [] := by
  have hwritable : s.writable a = true ↔ a.pool = false ∨ s.inFreeSlot a.addr = true := by
    unfold State.writable
    rw [Bool.or_eq_true, Bool.not_eq_true']
  unfold State.performAccess
  rw [if_neg (by simp [hw]), if_neg (Nat.not_le.2 hmap)]
  exact if_congr hwritable (onDram_answer ..) (State.answerError_write _ hw)

/-! ### The channel (R67, R86, R170) -/

theorem channelTakes_transfer {f : InFlight} (n : Nat) (hf : s.tte.inFlight = some f) (h : f.transfer = true) :
    s.channelTakes n =
      { s with tte := { s.tte with
          fifo := s.tte.fifo.drop (min n s.tte.fifo.length)
          inFlight := some { f with sent := f.sent + min n s.tte.fifo.length } } } := by
  unfold State.channelTakes
  rw [hf]
  exact if_pos h

theorem channelTakes_armed {f : InFlight} (n : Nat) (hf : s.tte.inFlight = some f) (h : f.transfer = false) :
    s.channelTakes n = s := by
  unfold State.channelTakes
  rw [hf]
  exact if_neg (by rw [h]; exact Bool.false_ne_true)

theorem channelTakes_loopback {l : Loop} (n : Nat) (hf : s.tte.inFlight = none) (hl : s.tte.loopback = some l) :
    s.channelTakes n =
      { s with tte := { s.tte with
          fifo := s.tte.fifo.drop (min n s.tte.fifo.length)
          loopback := some { l with sent := l.sent + min n s.tte.fifo.length } } } := by
  unfold State.channelTakes
  rw [hf, hl]
  rfl

theorem channelTakes_nothing (n : Nat) (hf : s.tte.inFlight = none) (hl : s.tte.loopback = none) : s.channelTakes n = s := by
  unfold State.channelTakes
  rw [hf, hl]

theorem channelDelivers_started {r : ReadState} {x : Reception} (bytes : List Byte) (hr : s.tte.read = some r)
    (hx : r.reception = some x) (hstarted : x.started = true) :
    s.channelDelivers bytes =
      { s with tte := { s.tte with
          fifo := s.tte.fifo ++ bytes.take (16384 - s.tte.fifo.length)
          read := some { r with reception := some { x with
            overrun := x.overrun || decide (16384 - s.tte.fifo.length < bytes.length) } } } } := by
  unfold State.channelDelivers
  rw [show s.tte.read.bind (·.reception) = some x by rw [hr]; exact hx]
  dsimp only
  rw [if_pos hstarted]
  exact onRead_of_some
    (s := { s with tte := { s.tte with fifo := s.tte.fifo ++ bytes.take (Config.channelFifo - s.tte.fifo.length) } }) _ hr

theorem channelDelivers_waiting (bytes : List Byte)
    (h : ∀ r x, s.tte.read = some r → r.reception = some x → x.started = false) : s.channelDelivers bytes = s := by
  unfold State.channelDelivers
  cases hx : s.tte.read.bind (·.reception) with
  | none => rfl
  | some x =>
    obtain ⟨r, hr, hrx⟩ := Option.bind_eq_some_iff.1 hx
    exact if_neg (by rw [h r x hr hrx]; exact Bool.false_ne_true)

/-! ### Coded bytes and entries placed (R53) -/

/-- The bytes that a grant places. -/
def State.placedNow (s : State) (i : Nat) : Nat :=
  min (min s.pe.output.length (freeSpace (s.slotAt i).dataBytes (s.slotAt i).entries))
    (64 - (s.slotBase i + 64 + (s.slotAt i).dataBytes) % 64)

theorem placeBytes_dram (s : State) (i : Nat) :
    (s.placeBytes i).dram
      = Memory.writeBytes s.dram (s.slotBase i + 64 + (s.slotAt i).dataBytes) (s.pe.output.take (s.placedNow i)) := by
  unfold State.placeBytes
  dsimp only
  split
  · rfl
  · split
    · exact State.dram_of_rest (State.triggerSeal_rest _)
    · split <;> rfl

/-- Placed short of the free space, the bytes leave the output and count as the slot's. -/
theorem placeBytes_counts {y : Slot} {i : Nat} (hy : s.spm.slots[i]? = some y)
    (hroom : s.placedNow i < freeSpace (s.slotAt i).dataBytes (s.slotAt i).entries) :
    (s.placeBytes i).pe.output = s.pe.output.drop (s.placedNow i)
      ∧ ((s.placeBytes i).slotAt i).dataBytes = (s.slotAt i).dataBytes + s.placedNow i := by
  have hslot : s.slotAt i = y := State.slotAt_of_get hy
  have hleft : freeSpace ((s.slotAt i).dataBytes + s.placedNow i) (s.slotAt i).entries ≠ 0 := by
    unfold freeSpace at hroom ⊢
    omega
  have hput {u : State} (hu : u.spm.slots = s.spm.slots.modify i fun y => { y with dataBytes := y.dataBytes + s.placedNow i }) :
      (u.slotAt i).dataBytes = (s.slotAt i).dataBytes + s.placedNow i := by
    rw [State.slotAt_of_get (x := { y with dataBytes := y.dataBytes + s.placedNow i }) (by rw [hu]; simp [hy]), hslot]
  unfold State.placeBytes
  dsimp only
  split
  · exact ⟨rfl, hput rfl⟩
  · split
    · next hfull => exact absurd hfull hleft
    · split
      · exact ⟨rfl, hput rfl⟩
      · exact ⟨rfl, hput rfl⟩

theorem triggerSeal_closed (h : s.pe.entryOpen = false) : s.triggerSeal.pe.entryOpen = false := by
  unfold State.triggerSeal
  split
  · exact h
  · next i _ =>
    dsimp only
    rw [withdrawBare_of_closed h]
    split
    · exact h
    · rfl

theorem complete_pe (id : Nat) (r : Result) (a b : Detail) : (s.complete id r a b).pe = s.pe := by
  unfold State.complete State.tryRecord
  split
  · rfl
  · dsimp only
    split <;> rfl

theorem endCommand_closed (c : IntakeCmd) (h : s.pe.entryOpen = false) : (s.endCommand c).pe.entryOpen = false := by
  unfold State.endCommand
  split
  · exact triggerSeal_closed h
  · rw [complete_pe]
    exact h

theorem itemDone_closed (s : State) : s.itemDone.pe.entryOpen = false := by
  unfold State.itemDone
  dsimp only
  split
  · rfl
  · split
    · exact endCommand_closed _ rfl
    · rfl

theorem placeEntry_dram (s : State) (i : Nat) :
    (s.placeEntry i).dram
      = Memory.writeBytes s.dram (s.slotBase i + entryOffset ((s.slotAt i).entries - 1)) (s.openEntry i true) :=
  State.dram_of_rest (State.itemDone_rest _)

theorem openEntry_length (s : State) (i : Nat) (last : Bool) : (s.openEntry i last).length = 16 := rfl

theorem grant_placeBytes_dram (s : State) (i : Nat) :
    ((s.countGrant .pack).placeBytes i).dram
      = Memory.writeBytes s.dram (s.slotBase i + 64 + (s.slotAt i).dataBytes) (s.pe.output.take (s.placedNow i)) := by
  have h := placeBytes_dram (s.countGrant .pack) i
  rwa [State.placedNow, countGrant_slotBase, countGrant_slotAt, countGrant_pe, countGrant_dram] at h

theorem grant_placeBytes_counts {y : Slot} {i : Nat} (hy : s.spm.slots[i]? = some y)
    (hroom : s.placedNow i < freeSpace (s.slotAt i).dataBytes (s.slotAt i).entries) :
    ((s.countGrant .pack).placeBytes i).pe.output = s.pe.output.drop (s.placedNow i)
      ∧ (((s.countGrant .pack).placeBytes i).slotAt i).dataBytes = (s.slotAt i).dataBytes + s.placedNow i := by
  have hplaced : (s.countGrant .pack).placedNow i = s.placedNow i := by
    unfold State.placedNow
    rw [countGrant_slotBase, countGrant_slotAt, countGrant_pe]
  have h := placeBytes_counts (s := s.countGrant .pack) hy (by rwa [hplaced, countGrant_slotAt])
  rwa [hplaced, countGrant_slotAt, countGrant_pe] at h

theorem grant_placeEntry_dram (s : State) (i : Nat) :
    ((s.countGrant .pack).placeEntry i).dram
      = Memory.writeBytes s.dram (s.slotBase i + entryOffset ((s.slotAt i).entries - 1)) (s.openEntry i true) := by
  rw [placeEntry_dram, countGrant_slotBase, countGrant_slotAt, countGrant_openEntry, countGrant_dram]

/-! ### Sealing writes (R22) -/

theorem sealStep_dram {j : SealJob} {a : Nat} {bytes : List Byte} {rest : List (Nat × List Byte)}
    (hj : j.writes = (a, bytes) :: rest) : (s.sealStep j).dram = Memory.writeBytes s.dram a bytes := by
  unfold State.sealStep
  rw [hj]
  dsimp only
  split
  · exact State.dram_of_rest (State.sealDone_rest _ _)
  · rfl

theorem sealStep_goes_on {j : SealJob} {a : Nat} {bytes : List Byte} {rest : List (Nat × List Byte)}
    (hj : j.writes = (a, bytes) :: rest) (hrest : rest ≠ []) :
    (s.sealStep j).spm = { s.spm with sealing := some { j with writes := rest } } := by
  unfold State.sealStep
  rw [hj]
  dsimp only
  rw [if_neg (by simpa using hrest)]
  rfl

theorem sealStep_last {j : SealJob} {a : Nat} {bytes : List Byte} (hj : j.writes = [(a, bytes)]) :
    s.sealStep j = (s.onDram fun m => Memory.writeBytes m a bytes).sealDone j.slot := by
  unfold State.sealStep
  rw [hj]
  rfl

/-- The sealing writes done, the slot is SEALED with copy number 0 and the timer stops. -/
theorem sealDone_spm (s : State) (i : Nat) :
    (s.sealDone i).spm =
      { ((s.setSlot i fun x => { x with copy := some 0 }).moveSlot i .filling .sealed id).spm with
        sealing := none, sealTimer := none } := by
  unfold State.sealDone
  dsimp only
  split <;> rfl

theorem sealDone_slot {i : Nat} (hfilling : (s.slotAt i).state = .filling) :
    ((s.sealDone i).slotAt i).state = .sealed ∧ ((s.sealDone i).slotAt i).copy = some 0 := by
  obtain ⟨y, hy, hstate⟩ := slot_of_slotAt hfilling nofun
  have hcopied : (s.setSlot i fun x => { x with copy := some 0 }).spm.slots[i]? = some { y with copy := some 0 } := by
    show (s.spm.slots.modify i _)[i]? = _
    simp [hy]
  have hlt : i < (s.setSlot i fun x => { x with copy := some 0 }).spm.slots.length := (List.getElem?_eq_some_iff.1 hcopied).1
  have hslot : (s.sealDone i).slotAt i = { y with copy := some 0, state := .sealed } := by
    refine State.slotAt_of_get ?_
    rw [sealDone_spm, State.moveSlot_of_get (f := id) hcopied hstate rfl]
    exact List.getElem?_set_self hlt
  rw [hslot]
  exact ⟨rfl, rfl⟩

/-- The sealing writes lie within DRAM where each of them does. -/
theorem sealReach_le {j : SealJob} (h : ∀ w ∈ j.writes, w.1 + w.2.length ≤ Config.dramSize) :
    ((j.writes.map fun w => w.1 + w.2.length).max?).getD 0 ≤ Config.dramSize := by
  cases hmax : (j.writes.map fun w => w.1 + w.2.length).max? with
  | none => exact Nat.zero_le _
  | some m =>
    obtain ⟨w, hw, rfl⟩ := List.mem_map.1 (List.max?_mem hmax)
    exact h w hw

/-- Coded bytes are placed in the FILLING slot. -/
theorem packWork_bytes {i : Nat} (h : s.packWork = some (.bytes i)) : s.spm.firstIn .filling = some i := by
  unfold State.packWork at h
  split at h
  · cases h
  · split at h
    · split at h
      · next hfill _ =>
        cases h
        exact hfill
      · cases h
      · cases h
    · cases h

end

/-- Settles O32: each requester's grant by its transfer, and the channel's bytes before it. -/
theorem grantServesUpstream : Obligations.GrantServesUpstream := by
  unfold Obligations.GrantServesUpstream
  intro s e granted
  refine ⟨?upstream, ?tte, ?pack, ?channel, ?unpack⟩
  case upstream =>
    intro rest hchoice u
    have hserved {t : State} (h : s.grant .upstream = t) : granted = .next t.finish :=
      (exec_grant hchoice (Nat.zero_le _)).trans (next_congr (congrArg State.finish h))
    refine ⟨fun block bytes h => hserved (grant_line h), fun a h => ⟨hserved (grant_access h), fun hw hmap => ?_⟩⟩
    refine (hserved ((grant_access h).trans (performAccess_below_map hw hmap))).trans (next_congr ?_)
    exact apply_ite State.finish _ _ _
  case tte =>
    intro i n hchoice hin a k
    have hserved {t : State} (hreach : s.reach .tte = s.slotBase i + Config.stripeSize) (h : s.grant .tte = t) :
        granted = .next t.finish :=
      (exec_grant hchoice (hreach.trans_le hin)).trans (next_congr (congrArg State.finish h))
    refine ⟨fun hw => hserved ?_ (grant_fetch hw rfl), fun hw => ?_⟩
    · unfold State.reach
      rw [hw]
    · intro m
      refine hserved ?_ (grant_store hw rfl)
      unfold State.reach
      rw [hw]
  case pack =>
    intro hchoice
    have hserved {t : State} (hreach : s.reach .pack ≤ Config.dramSize) (h : s.grant .pack = t) : granted = .next t.finish :=
      (exec_grant hchoice hreach).trans (next_congr (congrArg State.finish h))
    refine ⟨fun i hw hin => ?bytes, fun i hw hin => ?entry, fun j a bytes rest hw hj hin => ?sealing⟩
    case bytes =>
      intro x a k
      obtain ⟨y, hy, -⟩ := firstIn_state (packWork_bytes hw)
      have hreach : s.reach .pack = s.slotBase i + Config.stripeSize := by
        unfold State.reach
        rw [hw]
      have hdram : ((s.countGrant .pack).placeBytes i).finish.dram = Memory.writeBytes s.dram a (s.pe.output.take k) :=
        (finish_dram _).trans (grant_placeBytes_dram s i)
      refine ⟨(s.countGrant .pack).placeBytes i, hserved (hreach.trans_le hin) (grant_pack hw), hdram, fun b hb => ?_, fun hroom => ?_⟩
      · rw [hdram]
        refine Memory.read_writeBytes_frame _ _ _ b ?_
        have hlen : (s.pe.output.take k).length ≤ k := List.length_take_le ..
        omega
      · exact grant_placeBytes_counts hy hroom
    case entry =>
      intro a
      have hreach : s.reach .pack = s.slotBase i + Config.stripeSize := by
        unfold State.reach
        rw [hw]
      have hdram : ((s.countGrant .pack).placeEntry i).finish.dram = Memory.writeBytes s.dram a (s.openEntry i true) :=
        (finish_dram _).trans (grant_placeEntry_dram s i)
      refine ⟨(s.countGrant .pack).placeEntry i, hserved (hreach.trans_le hin) (grant_pack hw), hdram, fun b hb => ?_, itemDone_closed _⟩
      rw [hdram]
      exact Memory.read_writeBytes_frame _ _ _ b (by rwa [openEntry_length])
    case sealing =>
      have hreach : s.reach .pack ≤ Config.dramSize := by
        unfold State.reach
        rw [hw]
        exact sealReach_le hin
      have hdram : ((s.countGrant .pack).sealStep j).finish.dram = Memory.writeBytes s.dram a bytes :=
        (finish_dram _).trans (sealStep_dram hj)
      refine ⟨(s.countGrant .pack).sealStep j, hserved hreach (grant_pack hw), hdram, fun b hb => ?_, fun hrest => ?_, fun hrest => ?_⟩
      · rw [hdram]
        exact Memory.read_writeBytes_frame _ _ _ b hb
      · exact sealStep_goes_on hj hrest
      · subst hrest
        rw [sealStep_last hj]
        refine ⟨congrArg Spm.sealing (sealDone_spm ..), congrArg Spm.sealTimer (sealDone_spm ..), fun hfilling => ?_⟩
        exact sealDone_slot (s := (s.countGrant .pack).onDram fun m => Memory.writeBytes m a bytes) hfilling
  case channel =>
    intro quiet left
    refine ⟨fun n => ?_, fun bytes => ⟨fun r x hr hx hstarted => ?_, fun hwaits => ?_⟩⟩
    · intro k taken
      refine ⟨fun f hf => ⟨fun htransfer => ?_, fun harmed => ?_⟩, fun l hf hl => ?_, fun hf hl => ?_⟩
      · exact congrArg quiet (channelTakes_transfer n hf htransfer)
      · exact congrArg quiet (channelTakes_armed n hf harmed)
      · exact congrArg quiet (channelTakes_loopback n hf hl)
      · exact congrArg quiet (channelTakes_nothing n hf hl)
    · exact congrArg quiet (channelDelivers_started bytes hr hx hstarted)
    · exact congrArg quiet (channelDelivers_waiting bytes hwaits)
  case unpack =>
    intro d hchoice hw hin a k
    have hreach : s.reach .unpack = s.slotBase d.slot + Config.stripeSize := by
      unfold State.reach
      rw [hw]
      rfl
    exact (exec_grant hchoice (hreach.trans_le hin)).trans (next_congr (congrArg State.finish (grant_fetchCoded hw)))

end Sys2Proof.Machine
end
